-- ==== Sys2Proof/Word.lean ====
section
/-! DEFINITION. The word types of the TimeSync SNTP core block: registers of 64 bits, octets of the
buffers, and the index a host presents (00_scope.md R14 to R16, 20_memory.md R80). -/

namespace Sys2Proof

/-- A register's contents, 64 bits (10_state.md R31). -/
abbrev Word := BitVec 64

/-- One octet of a buffer (20_memory.md R92). -/
abbrev Byte := BitVec 8

/-- An index a host primitive presents, 0 to 2^32 − 1 (20_memory.md R80). -/
abbrev Index := BitVec 32

/-- An IEEE 754 binary64 value held as its bit pattern (00_scope.md R16). -/
abbrev F64 := BitVec 64

end Sys2Proof
end

