-- ==== Sys2Proof/Config.lean ====
section
/-! DEFINITION. The implementation parameters of the block (00_scope.md R10) and the values this
machine fixes them at. Every operation that depends on a parameter takes `Params` as an argument;
only the instructions' meanings and the step apply it to `Config.params`. -/

namespace Sys2Proof

/-- The two arithmetic variants of the timestamp converter (40_packet_codec.md R151). -/
inductive Arith where
  /-- binary64 arithmetic, the reference's double-precision pipeline -/
  | binary64
  /-- exact rational arithmetic -/
  | exact
  deriving DecidableEq, Repr

/-- The parameters of 00_scope.md R10 that a rule reads. -/
structure Params where
  /-- `TICK_HZ`, ticks per second of an Instant -/
  tickHz : Nat
  /-- `PKT_IN_CAP`, octets the inbound buffer stores -/
  pktInCap : Nat
  /-- `ENCODE_ARITH` -/
  encodeArith : Arith
  /-- `DECODE_ARITH` -/
  decodeArith : Arith
  deriving DecidableEq, Repr

/-- The defaults of 00_scope.md R10. DESIGN CHOICE (log 1): R10 lets a model fix each parameter at
its default, and the machine of `exec` and `step` does; unsafe for a block built otherwise. -/
def Config.params : Params where
  tickHz := 10000000
  pktInCap := 68
  encodeArith := .binary64
  decodeArith := .binary64

/-- `CMD_LATENCY` (00_scope.md R10, 70_reset_and_hazards.md R326): any value, and no rule depends
on it, so nothing reads this constant. -/
opaque Config.cmdLatency : Nat

end Sys2Proof
end

