-- ==== Sys2Proof/Syntax.lean ====
section
/-! DEFINITION. The nine commands of the block (30_encoding.md R112), one constructor per row of
spec/opcode_table.json. Every other operand of a command is in a register or a buffer (R113). -/

namespace Sys2Proof

/-- A command of the block. -/
inductive Instr where
  /-- BUILDREQ, OPC 0x01: build the request packet (40_packet_codec.md R161) -/
  | buildreq
  /-- ENCTS, OPC 0x02: encode an Instant as an NTP64 value (R162) -/
  | encts
  /-- DECTS, OPC 0x03: decode an NTP64 value held in ARG0 (R163) -/
  | dects
  /-- DECTSB, OPC 0x04: decode the NTP64 value at an octet offset of IN; the offset is IMM8 (R164) -/
  | dectsb (offset : Nat)
  /-- DECHDR, OPC 0x05: decode the header (R195) -/
  | dechdr
  /-- VALID, OPC 0x06: validate a reply (41_offset_calculator.md R231) -/
  | valid
  /-- RTDELAY, OPC 0x07: round-trip delay (R236) -/
  | rtdelay
  /-- CLKOFF, OPC 0x08: system clock offset (R241) -/
  | clkoff
  /-- CORRCLK, OPC 0x09: corrected clock (R250) -/
  | corrclk
  deriving DecidableEq, Repr

end Sys2Proof
end

