-- ==== Sys2Proof/WellFormed.lean ====
section
/-! DEFINITION. Which commands have an encoding, and which parameter values are legal. -/

namespace Sys2Proof

/-- A command has an encoding when its offset fits IMM8 (30_encoding.md R113: "IMM8 in 0 to 255"). -/
def Instr.wellFormed : Instr → Bool
  | .dectsb offset => offset < 256
  | .buildreq | .encts | .dects | .dechdr | .valid | .rtdelay | .clkoff | .corrclk => true

/-- The legal values of `TICK_HZ` (00_scope.md R10). -/
def Params.tickHzLegal (p : Params) : Bool :=
  1000 ≤ p.tickHz && p.tickHz ≤ 1000000000 && p.tickHz % 1000 == 0

/-- The legal values of all parameters (00_scope.md R10). -/
def Params.legal (p : Params) : Bool :=
  p.tickHzLegal && 48 ≤ p.pktInCap

end Sys2Proof
end

