-- ==== Sys2Proof/Decode.lean ====
section
/-! DEFINITION. The command word's decoder, total on every 64-bit value and rejecting by name, and the
encoder (30_encoding.md R110 to R116). -/

namespace Sys2Proof

/-- Why a command word is illegal (30_encoding.md R113 to R115). -/
inductive Illegal where
  /-- RSV, bits 63:16, is not 0 (R114) -/
  | reservedField
  /-- OPC is 0x00 or 0x0A to 0xFF (R115) -/
  | reservedOpcode
  /-- IMM8 is not 0 on a command other than DECTSB (R113) -/
  | nonzeroImm8
  deriving DecidableEq, Repr

/-- OPC = v[7:0] (R110). -/
def opcField (w : Word) : BitVec 8 := w.extractLsb' 0 8

/-- IMM8 = v[15:8] (R110). -/
def imm8Field (w : Word) : BitVec 8 := w.extractLsb' 8 8

/-- RSV = v[63:16] (R110). -/
def rsvField (w : Word) : BitVec 48 := w.extractLsb' 16 48

/-- The opcode map of R112: the command OPC selects, with IMM8 zero-extended as its operand (R113). -/
def operationOf (opc imm8 : BitVec 8) : Option Instr :=
  match opc.toNat with
  | 0x01 => some .buildreq
  | 0x02 => some .encts
  | 0x03 => some .dects
  | 0x04 => some (.dectsb imm8.toNat)
  | 0x05 => some .dechdr
  | 0x06 => some .valid
  | 0x07 => some .rtdelay
  | 0x08 => some .clkoff
  | 0x09 => some .corrclk
  | _ => none

/-- The decoder, with the checks in the order of R111: RSV, OPC, IMM8. -/
def decode (w : Word) : Except Illegal Instr :=
  if rsvField w ≠ 0#48 then .error .reservedField
  else match operationOf (opcField w) (imm8Field w) with
    | none => .error .reservedOpcode
    | some i =>
      if opcField w ≠ 0x04#8 ∧ imm8Field w ≠ 0#8 then .error .nonzeroImm8 else .ok i

/-- A command's operation code (R112). -/
def Instr.opc : Instr → BitVec 8
  | .buildreq => 0x01
  | .encts => 0x02
  | .dects => 0x03
  | .dectsb _ => 0x04
  | .dechdr => 0x05
  | .valid => 0x06
  | .rtdelay => 0x07
  | .clkoff => 0x08
  | .corrclk => 0x09

/-- The command word of a well-formed command: the match columns of spec/opcode_table.json, and for
DECTSB `(o << 8) OR 0x04` (R126, 40_packet_codec.md R164). -/
def encode : Instr → Word
  | .buildreq => 0x0000000000000001
  | .encts => 0x0000000000000002
  | .dects => 0x0000000000000003
  | .dectsb offset => BitVec.ofNat 64 offset <<< 8 ||| 0x0000000000000004
  | .dechdr => 0x0000000000000005
  | .valid => 0x0000000000000006
  | .rtdelay => 0x0000000000000007
  | .clkoff => 0x0000000000000008
  | .corrclk => 0x0000000000000009

/-- The 64-bit command word whose low `nbits` bits are those of `w` and whose other bits are 0. A
command is always one 64-bit CMD write (R116), so there is no second word and no byte order. -/
def commandWord (nbits w : Nat) : Word := BitVec.ofNat 64 (w % 2 ^ nbits)

/-- What the decoder reads from an instruction given as spec/opcode_table.json numbers its bits. -/
def decodeTableWord (nbits w : Nat) : Option Instr :=
  match decode (commandWord nbits w) with
  | .ok i => some i
  | .error _ => none

end Sys2Proof
end

