-- ==== Sys2Proof/Machine/State.lean ====
section
/-! DEFINITION. The state of the block and of the host that drives it, as plain data; the names of the
registers, the views, the errors and the host's statements; reset. -/

namespace Sys2Proof.Machine

/-- A buffer's octets: the listed (index, octet) pairs, indices strictly rising, no listed octet 0.
An unlisted octet is 0, its reset value (10_state.md R41, R42; 70_reset_and_hazards.md R310). -/
abbrev Memory := List Host.Cell

/-- The block's state, exactly the fields of 10_state.md R44. CMD, the views and TXT are functions of
it and no state (R32, R43, R47). -/
structure Block where
  /-- STATUS, register 1 (R33) -/
  status : Word
  /-- CFG, register 2; only bit 0, SRC_IPV, is ever stored (R34) -/
  cfg : Word
  /-- IN_LEN, register 3 (R35) -/
  inLen : Word
  /-- ARG0, register 4 (R36) -/
  arg0 : Word
  /-- ARG1, register 5 (R36) -/
  arg1 : Word
  /-- ARG2, register 6 (R36) -/
  arg2 : Word
  /-- ARG3, register 7 (R36) -/
  arg3 : Word
  /-- RES0, register 8 (R37) -/
  res0 : Word
  /-- RES1, register 9 (R37) -/
  res1 : Word
  /-- RES2, register 10 (R37) -/
  res2 : Word
  /-- RES3, register 11 (R37) -/
  res3 : Word
  /-- ERR_A, register 12 (R38) -/
  errA : Word
  /-- ERR_B, register 13 (R38) -/
  errB : Word
  /-- IN, the inbound buffer of PKT_IN_CAP octets (R41) -/
  inBuf : Memory
  /-- OUT, the outbound buffer of 48 octets (R42) -/
  outBuf : Memory
  deriving DecidableEq, Repr

/-- Every field at its reset value, 0 (70_reset_and_hazards.md R310). -/
def Block.reset : Block where
  status := 0
  cfg := 0
  inLen := 0
  arg0 := 0
  arg1 := 0
  arg2 := 0
  arg3 := 0
  res0 := 0
  res1 := 0
  res2 := 0
  res3 := 0
  errA := 0
  errB := 0
  inBuf := []
  outBuf := []

/-- The view registers, indices 16 to 40 in this order (10_state.md R31). -/
inductive View where
  | li | vn | mode | modeClass | stratum | stratumClass | poll | pollS | precision | precisionNs
  | rootDelay | rootDelayMs | rootDisp | rootDispMs | refid | refidClass | refidLen
  | refRaw | t1Raw | t2Raw | t3Raw | refTs | t1 | t2 | t3
  deriving DecidableEq, Repr

/-- The registers by name; `reserved` is every index that names none (10_state.md R31, R39). -/
inductive Reg where
  | cmd | status | cfg | inLen | arg0 | arg1 | arg2 | arg3 | res0 | res1 | res2 | res3 | errA | errB
  | view (v : View)
  | reserved
  deriving DecidableEq, Repr

/-- The error kinds STATUS.ERR reports (60_exceptions.md R280). -/
inductive ErrKind where
  /-- the command completed -/
  | none
  /-- a buffer or field too short: DECHDR, VALID, DECTSB -/
  | malformedPacket
  /-- LI = 3: VALID -/
  | clockNotSynchronized
  /-- VN = 0: VALID -/
  | invalidVersion
  /-- the mode is neither Server nor Broadcast: VALID -/
  | unexpectedMode
  /-- a leg of the 34-year check fails: CLKOFF -/
  | clockDisparityTooLarge
  /-- T3 is within a second of the NTP epoch: CLKOFF -/
  | invalidTransmitTimestamp
  /-- a distinct kind that no command raises (R287) -/
  | unknownEnumValue
  /-- the command word decodes to no command: the decoder (R286) -/
  | illegalCommand
  /-- CORRCLK's offset is not finite or its result is outside i64 -/
  | rangeError
  deriving DecidableEq, Repr

/-- One statement of a host program (30_encoding.md R125). A jump names its target by the statement's
position; labels are names of positions (log 5). -/
inductive HostStmt where
  /-- `WR reg, value`: HostWrReg -/
  | wr (reg : Index) (value : Word)
  /-- `WR reg, ` the value the latest read returned: the second half of `MOV` (R126) -/
  | wrRead (reg : Index)
  /-- `RD reg`: HostRdReg -/
  | rd (reg : Index)
  /-- `WRB i, value`: HostWrIn -/
  | wrb (i : Index) (value : Byte)
  /-- `RDB IN i`: HostRdIn -/
  | rdbIn (i : Index)
  /-- `RDB OUT i`: HostRdOut -/
  | rdbOut (i : Index)
  /-- `RDB TXT i`: HostRdTxt -/
  | rdbTxt (i : Index)
  /-- `JERR label`: read STATUS, continue at the target if STATUS.ERR ≠ 0 -/
  | jerr (target : Nat)
  /-- `JMP label` -/
  | jmp (target : Nat)
  /-- `HALT` -/
  | halt
  /-- `RESET`: HostReset -/
  | reset
  deriving DecidableEq, Repr

/-- The host, the agent that drives the block (20_memory.md R87): its program, its position in it
(10_state.md R45: the position is the host's) and the value its latest read returned. -/
structure HostAgent where
  program : List HostStmt
  pos : Nat
  readVal : Word
  deriving DecidableEq, Repr

/-- The machine: the block and the host (20_memory.md R87: "There are two agents"). -/
structure State where
  block : Block
  host : HostAgent
  deriving DecidableEq, Repr

/-- Why the machine stops with a fault. No constructor: the block has no access fault (20_memory.md
R96) and no trap (60_exceptions.md R289), so nothing raises one; an error is reported in STATUS. -/
inductive Fault where
  deriving DecidableEq, Repr

/-- Why the model gives an instruction no meaning. -/
inductive Refusal where
  /-- raised by an arm of `exec` that has no meaning yet; no arm does, so nothing raises it (safe) -/
  | notModelled (mnemonic : String)
  deriving DecidableEq, Repr

/-- The machine right after reset: the block as 70_reset_and_hazards.md R310 says, and a host with an
empty program (log 4: a program is given to the host from outside, so from here nothing runs). -/
def State.reset : State where
  block := Block.reset
  host := { program := [], pos := 0, readVal := 0 }

end Sys2Proof.Machine
end

