-- ==== Sys2Proof/Machine/Flags.lean ====
section
/-! DEFINITION. The STATUS word: its fields, the error codes, and the conditions that set its flags
(10_state.md R33, R46; 60_exceptions.md R280, R284). -/

namespace Sys2Proof.Machine

/-- The code STATUS.ERR holds (60_exceptions.md R280). -/
def ErrKind.code : ErrKind → BitVec 8
  | .none => 0
  | .malformedPacket => 1
  | .clockNotSynchronized => 2
  | .invalidVersion => 3
  | .unexpectedMode => 4
  | .clockDisparityTooLarge => 5
  | .invalidTransmitTimestamp => 6
  | .unknownEnumValue => 7
  | .illegalCommand => 8
  | .rangeError => 9

/-- STATUS as a command's end writes it, whole (60_exceptions.md R284); bits 15:12 and 63:24 are 0. -/
def statusWord (err : ErrKind) (clamp range : Bool) (leg : BitVec 2) (lastOpc : BitVec 8) : Word :=
  0#40 ++ lastOpc ++ 0#4 ++ leg ++ BitVec.ofBool range ++ BitVec.ofBool clamp ++ err.code

/-- STATUS.ERR, bits 7:0 (10_state.md R33). -/
def statusErr (w : Word) : BitVec 8 := w.extractLsb' 0 8

/-- STATUS.CLAMP, bit 8. -/
def statusClamp (w : Word) : Bool := w.getLsbD 8

/-- STATUS.RANGE, bit 9. -/
def statusRange (w : Word) : Bool := w.getLsbD 9

/-- STATUS.LEG, bits 11:10. -/
def statusLeg (w : Word) : BitVec 2 := w.extractLsb' 10 2

/-- STATUS.LAST_OPC, bits 23:16. -/
def statusLastOpc (w : Word) : BitVec 8 := w.extractLsb' 16 8

/-- STATUS bits 15:12 and 63:24, which read 0. -/
def statusReserved (w : Word) : BitVec 44 := w.extractLsb' 24 40 ++ w.extractLsb' 12 4

/-- The exact integer lies in the signed 64-bit range (41_offset_calculator.md R234, R250). -/
def fitsI64 (x : Int) : Bool := -2 ^ 63 ≤ x && x ≤ 2 ^ 63 - 1

end Sys2Proof.Machine
end

