-- ==== Sys2Proof/Machine/Ops.lean ====
section
/-! DEFINITION. The shared operations over the buffers and the registers, and how a command ends:
`complete` and `raise` (00_scope.md R20, R21). Raising an error is the block's whole exception entry;
there is no return from one (60_exceptions.md R289, R290). -/

namespace Sys2Proof.Machine

/-! ### Buffers -/

/-- The octet at an index; an unlisted octet is 0. -/
def Memory.read : Memory → Nat → Byte
  | [], _ => 0
  | (k, v) :: rest, a => if k = a then v else Memory.read rest a

/-- The buffer with one octet stored, in the canonical form again. -/
def Memory.write : Memory → Nat → Byte → Memory
  | [], a, v => if v = 0 then [] else [(a, v)]
  | (k, b) :: rest, a, v =>
    if a < k then (if v = 0 then (k, b) :: rest else (a, v) :: (k, b) :: rest)
    else if a = k then (if v = 0 then rest else (a, v) :: rest)
    else (k, b) :: Memory.write rest a v

/-- Every index listed is at least `lo`, indices rise strictly, and no octet listed is 0. -/
def Memory.wfFrom : Nat → Memory → Bool
  | _, [] => true
  | lo, (k, v) :: rest => lo ≤ k && v ≠ 0 && Memory.wfFrom (k + 1) rest

/-- The canonical form: strictly rising indices, no octet equal to what an unlisted one reads as. -/
def Memory.wf (m : Memory) : Bool := Memory.wfFrom 0 m

/-- Every listed index is below the buffer's capacity. -/
def Memory.within (cap : Nat) (m : Memory) : Bool := m.all (fun c => c.1 < cap)

/-- Consecutive octets stored from an index upward. -/
def Memory.writeList : Memory → Nat → List Byte → Memory
  | m, _, [] => m
  | m, a, v :: vs => Memory.writeList (Memory.write m a v) (a + 1) vs

/-- `BE32(b, o)` (00_scope.md R15): octet `o` is the most significant. -/
def be32 (m : Memory) (o : Nat) : BitVec 32 :=
  m.read o ++ m.read (o + 1) ++ m.read (o + 2) ++ m.read (o + 3)

/-- `BE64(b, o)` (00_scope.md R15). -/
def be64 (m : Memory) (o : Nat) : Word := be32 m o ++ be32 m (o + 4)

/-- The eight octets of an NTP64 value in network byte order (20_memory.md R88, R89). -/
def octetsBE (raw : Word) : List Byte :=
  (List.range 8).map fun j => raw.extractLsb' (56 - 8 * j) 8

/-! ### Registers -/

def Block.setStatus (b : Block) (v : Word) : Block := { b with status := v }
/-- CFG stores bit 0 only; a write ignores bits 63:1 (10_state.md R34, 20_memory.md R82). -/
def Block.setCfg (b : Block) (v : Word) : Block := { b with cfg := v &&& 1 }
def Block.setInLen (b : Block) (v : Word) : Block := { b with inLen := v }
def Block.setArg0 (b : Block) (v : Word) : Block := { b with arg0 := v }
def Block.setArg1 (b : Block) (v : Word) : Block := { b with arg1 := v }
def Block.setArg2 (b : Block) (v : Word) : Block := { b with arg2 := v }
def Block.setArg3 (b : Block) (v : Word) : Block := { b with arg3 := v }
def Block.setRes0 (b : Block) (v : Word) : Block := { b with res0 := v }
def Block.setRes1 (b : Block) (v : Word) : Block := { b with res1 := v }
def Block.setRes2 (b : Block) (v : Word) : Block := { b with res2 := v }
def Block.setRes3 (b : Block) (v : Word) : Block := { b with res3 := v }
/-- The error-information registers, written together (41_offset_calculator.md R245). -/
def Block.setErrInfo (b : Block) (first second : Word) : Block :=
  { b with errA := first, errB := second }
def Block.setIn (b : Block) (m : Memory) : Block := { b with inBuf := m }
def Block.setOut (b : Block) (m : Memory) : Block := { b with outBuf := m }

/-- The machine with another block state; the host is as before. -/
def State.setBlock (s : State) (b : Block) : State := { s with block := b }

/-- `wrap64(x)`: the i64 congruent to `x` modulo 2^64 (00_scope.md R16). -/
def wrap64 (x : Int) : Word := BitVec.ofInt 64 x

/-! ### The end of a command -/

/-- STATUS written as a whole at a command's end (60_exceptions.md R284). -/
def endCommand (lastOpc : BitVec 8) (err : ErrKind) (clamp range : Bool) (leg : BitVec 2)
    (b : Block) : Block :=
  b.setStatus (statusWord err clamp range leg lastOpc)

/-- `complete(clamp, range)`: the command ends successfully (00_scope.md R21). -/
def complete (lastOpc : BitVec 8) (clamp range : Bool) (b : Block) : Block :=
  endCommand lastOpc .none clamp range 0 b

/-- `raise E()` for an error that carries no information: STATUS is written and nothing else
(00_scope.md R20, 60_exceptions.md R285). -/
def raise (lastOpc : BitVec 8) (err : ErrKind) (b : Block) : Block :=
  endCommand lastOpc err false false 0 b

/-- `raise ClockDisparityTooLarge(ERR_A <- first, ERR_B <- second, LEG = leg)`, the one error that
carries information (41_offset_calculator.md R245). -/
def raiseDisparity (lastOpc : BitVec 8) (leg : BitVec 2) (first second : Word) (b : Block) : Block :=
  endCommand lastOpc .clockDisparityTooLarge false false leg (b.setErrInfo first second)

/-- An illegal command word: ERR = 8, LAST_OPC = bits 7:0 of the word, nothing else changes
(60_exceptions.md R286). -/
def raiseIllegal (w : Word) (b : Block) : Block := raise (opcField w) .illegalCommand b

end Sys2Proof.Machine
end

