-- ==== Sys2Proof/Machine/Operands.lean ====
section
/-! DEFINITION. The operand forms a command takes: a register as an Instant, the octet-0 subfields of
the packet, the bounds of a field in IN, and CFG.SRC_IPV (30_encoding.md R113, R118). -/

namespace Sys2Proof.Machine

/-- A register's contents as an Instant, a signed tick count (10_state.md R30). -/
def instant (w : Word) : Int := w.toInt

/-- LI = octet0[7:6] (30_encoding.md R118). -/
def leapIndicator (octet0 : Byte) : BitVec 2 := octet0.extractLsb' 6 2

/-- VN = octet0[5:3] (R118). -/
def versionNumber (octet0 : Byte) : BitVec 3 := octet0.extractLsb' 3 3

/-- Mode = octet0[2:0] (R118). -/
def modeField (octet0 : Byte) : BitVec 3 := octet0.extractLsb' 0 3

/-- The octets of the packet header (00_scope.md R11). -/
def headerLength : Nat := 48

/-- The received datagram is shorter than the header (40_packet_codec.md R195,
41_offset_calculator.md R231). -/
def headerShort (b : Block) : Bool := b.inLen.toNat < headerLength

/-- The eight octets from `o` do not all lie inside the received datagram and the stored octets
(40_packet_codec.md R164). -/
def fieldOutside (p : Params) (b : Block) (o : Nat) : Bool := min b.inLen.toNat p.pktInCap < o + 8

/-- CFG.SRC_IPV (10_state.md R34): true for IPv6. -/
def srcIpv6 (b : Block) : Bool := b.cfg.getLsbD 0

end Sys2Proof.Machine
end

