-- ==== Sys2Proof/Machine/Binary64.lean ====
section
/-! DEFINITION. Rounding and binary64 arithmetic (00_scope.md R17, R18). An exact rational is given as
a numerator and a positive denominator; a finite binary64 value is read the same way. -/

namespace Sys2Proof.Machine

/-- `RNI(a / b)`: the integer nearest the rational, ties to the even integer (R18). -/
def rni (a : Int) (b : Nat) : Int :=
  if 2 * (a % b) < b ∨ (2 * (a % b) = b ∧ a / b % 2 = 0) then a / b else a / b + 1

/-- The exponent of the greatest power of two that is at most `n / d`, for positive `n` and `d`. -/
def floorLog2 (n d : Nat) : Int :=
  let k : Int := n.log2 - d.log2
  if n * 2 ^ (-k).toNat < d * 2 ^ k.toNat then k - 1 else k

/-- The pattern of +Inf (IEEE 754). -/
def infPattern : Nat := 0x7FF0000000000000

/-- The bit pattern of the binary64 value nearest `n / d > 0`: the quotient is rounded to an integer
number of units in the last place, 2^(e − 52) with e the exponent, at least −1022. A significand that
rounds up to 2^53 carries into the exponent; past the largest finite value the pattern is +Inf. -/
def magnitudePattern (n d : Nat) : Nat :=
  let e := max (floorLog2 n d) (-1022)
  let q := e - 52
  min ((e + 1022).toNat * 2 ^ 52 + (rni (n * 2 ^ (-q).toNat : Nat) (d * 2 ^ q.toNat)).toNat) infPattern

/-- `RN(a / b)` as its bit pattern (R17): the binary64 value nearest the exact rational, ties to the
value with an even significand; an exact zero gives +0. -/
def rn (a : Int) (b : Nat) : F64 :=
  if a = 0 then 0#64
  else BitVec.ofNat 64 ((if a < 0 then 2 ^ 63 else 0) + magnitudePattern a.natAbs b)

/-- The sign bit. -/
def F64.negative (x : F64) : Bool := x.getLsbD 63

/-- The exponent field, bits 62:52. -/
def F64.exponentField (x : F64) : Nat := (x.extractLsb' 52 11).toNat

/-- The fraction field, bits 51:0. -/
def F64.fractionField (x : F64) : Nat := (x.extractLsb' 0 52).toNat

/-- Neither NaN nor an infinity (41_offset_calculator.md R250 asks this of ARG1). -/
def F64.finite (x : F64) : Bool := F64.exponentField x ≠ 2047

/-- The integer significand, with the hidden bit of a normal value. -/
def F64.significand (x : F64) : Nat :=
  if F64.exponentField x = 0 then F64.fractionField x else 2 ^ 52 + F64.fractionField x

/-- The exponent field, 1 for a subnormal value: the value is ± significand · 2^(scale − 1075). -/
def F64.scale (x : F64) : Nat := max 1 (F64.exponentField x)

/-- The numerator of a finite value. -/
def F64.num (x : F64) : Int :=
  (if F64.negative x then -1 else 1) * (F64.significand x * 2 ^ (F64.scale x - 1075) : Nat)

/-- The denominator of a finite value, a power of two; zero is 0 / 1. -/
def F64.den (x : F64) : Nat := if F64.significand x = 0 then 1 else 2 ^ (1075 - F64.scale x)

/-- The greatest integer at most a finite value. -/
def F64.floor (x : F64) : Int := F64.num x / F64.den x

/-- Integer-to-binary64 conversion (R17). -/
def fcvt (n : Int) : F64 := rn n 1

/-- binary64 addition of finite values: RN of the exact sum (R17). -/
def fadd (x y : F64) : F64 :=
  rn (F64.num x * F64.den y + F64.num y * F64.den x) (F64.den x * F64.den y)

/-- binary64 multiplication of finite values: RN of the exact product (R17). -/
def fmul (x y : F64) : F64 := rn (F64.num x * F64.num y) (F64.den x * F64.den y)

/-- binary64 division by a finite positive value: RN of the exact quotient (R17). -/
def fdiv (x y : F64) : F64 := rn (F64.num x * F64.den y) (F64.den x * (F64.num y).toNat)

end Sys2Proof.Machine
end

