-- ==== Sys2Proof/Machine/Timestamp.lean ====
section
/-! DEFINITION. The time constants and the timestamp converter ENC and DEC
(00_scope.md R11, R12; 40_packet_codec.md R150 to R160). -/

namespace Sys2Proof.Machine

/-- `EPOCH_DELTA_S`, seconds from 1900-01-01 to 1970-01-01 (00_scope.md R12). -/
def epochDeltaS : Nat := 2208988800

/-- `DISPARITY_LIMIT_S`, 34 × 365 days in seconds (00_scope.md R11). -/
def disparityLimitS : Nat := 34 * 365 * 86400

/-- `TICKS_PER_MS` (00_scope.md R10). -/
def ticksPerMs (p : Params) : Nat := p.tickHz / 1000

/-- `NTP_EPOCH_INSTANT`, the NTP epoch in ticks since the Unix epoch (00_scope.md R12). -/
def ntpEpoch (p : Params) : Int := -((epochDeltaS * p.tickHz : Nat) : Int)

/-- What ENC_BODY returns: the seconds' low 32 bits, the fraction, and whether the seconds wrapped. -/
structure EncBody where
  s32 : Nat
  f32 : Nat
  wrap : Bool
  deriving DecidableEq, Repr

/-- ENC_BODY for ENCODE_ARITH = BINARY64 (40_packet_codec.md R153): four independently scaled, truncated
and masked fraction octets of the binary64 count of seconds. -/
def encBodyBinary64 (p : Params) (n : Nat) : EncBody :=
  let d := fdiv (fcvt n) (fcvt p.tickHz)
  let i := F64.floor d
  -- f = d − I, exactly, with the denominator of d
  let fNum := F64.num d - i * F64.den d
  let octet (k : Nat) : Nat := (fNum * 2 ^ (8 * k) / F64.den d % 256).toNat
  { s32 := (i % 2 ^ 32).toNat
    f32 := octet 1 * 2 ^ 24 + octet 2 * 2 ^ 16 + octet 3 * 2 ^ 8 + octet 4
    wrap := 2 ^ 32 ≤ i }

/-- ENC_BODY for ENCODE_ARITH = EXACT (R154). -/
def encBodyExact (p : Params) (n : Nat) : EncBody where
  s32 := n / p.tickHz % 2 ^ 32
  f32 := n % p.tickHz * 2 ^ 32 / p.tickHz
  wrap := 2 ^ 32 ≤ n / p.tickHz

/-- ENC_BODY per ENCODE_ARITH (R151). -/
def encBody (p : Params) (n : Nat) : EncBody :=
  match p.encodeArith with
  | .binary64 => encBodyBinary64 p n
  | .exact => encBodyExact p n

/-- What ENC returns: the NTP64 value and the clamp bit. -/
structure Encoded where
  raw : Word
  clamp : Bool
  deriving DecidableEq, Repr

/-- ENC, Instant to NTP64 (R152): a negative delta clamps to 0, a delta of 2^32 s or more wraps. -/
def enc (p : Params) (t : Word) : Encoded :=
  let n := t.toInt - ntpEpoch p
  let e := encBody p (if n < 0 then 0 else n.toNat)
  { raw := BitVec.ofNat 64 (e.s32 * 2 ^ 32 + e.f32), clamp := n < 0 || e.wrap }

/-- DEC_BODY for DECODE_ARITH = BINARY64 (R156): the fraction octets weighted and summed, the seconds
added with one rounding, scaled to ticks with another, and rounded to an integer. -/
def decBodyBinary64 (p : Params) (i : BitVec 32) (b1 b2 b3 b4 : Byte) : Int :=
  let fr := fadd (fadd (fadd (rn b1.toNat 256) (rn b2.toNat 65536)) (rn b3.toNat 16777216))
    (rn b4.toNat 4294967296)
  let delta := fadd (fcvt i.toNat) fr
  let ticks := fmul delta (fcvt p.tickHz)
  rni (F64.num ticks) (F64.den ticks)

/-- DEC_BODY for DECODE_ARITH = EXACT (R156); the raw value is I · 2^32 + F32. -/
def decBodyExact (p : Params) (raw : Word) : Int :=
  rni (raw.toNat * p.tickHz : Nat) (2 ^ 32)

/-- DEC_BODY per DECODE_ARITH (R151). -/
def decBody (p : Params) (raw : Word) : Int :=
  match p.decodeArith with
  | .binary64 =>
    decBodyBinary64 p (raw.extractLsb' 32 32) (raw.extractLsb' 24 8) (raw.extractLsb' 16 8)
      (raw.extractLsb' 8 8) (raw.extractLsb' 0 8)
  | .exact => decBodyExact p raw

/-- DEC, NTP64 to Instant (R156); the sum lies in the i64 range (R158). -/
def dec (p : Params) (raw : Word) : Word := wrap64 (ntpEpoch p + decBody p raw)

end Sys2Proof.Machine
end

