-- ==== Sys2Proof/Machine/OffsetCalculator.lean ====
section
/-! DEFINITION. The offset calculator's commands (41_offset_calculator.md R231, R236, R241, R250): each
as a function of the parameters and the block, and as the instruction's meaning at `Config.params`.
All tick arithmetic is on integers. -/

namespace Sys2Proof.Machine

/-- The check of VALID that fails first, in the order (a) to (d) (R231); `none` if all pass. -/
def validError (b : Block) : ErrKind :=
  if headerShort b then .malformedPacket
  else if leapIndicator (b.inBuf.read 0) = 3 then .clockNotSynchronized
  else if versionNumber (b.inBuf.read 0) = 0 then .invalidVersion
  else if modeField (b.inBuf.read 0) = 4 ∨ modeField (b.inBuf.read 0) = 5 then .none
  else .unexpectedMode

/-- VALID (R231): completes when every check passes, else raises the first that fails. -/
def valid (b : Block) : Block :=
  match validError b with
  | .none => complete Instr.valid.opc false false b
  | e => raise Instr.valid.opc e b

/-- D = (T4 − T1) − (T3 − T2), exact ticks (R236). -/
def delayTicks (b : Block) : Int :=
  (instant b.arg3 - instant b.arg0) - (instant b.arg2 - instant b.arg1)

/-- RTDELAY (R236): ticks wrapped to 64 bits with RANGE, milliseconds from the exact D. -/
def rtdelay (p : Params) (b : Block) : Block :=
  complete Instr.rtdelay.opc false (!fitsI64 (delayTicks b))
    ((b.setRes0 (wrap64 (delayTicks b))).setRes1 (rn (delayTicks b) (ticksPerMs p)))

/-- L, the disparity limit in ticks (R237). -/
def disparityLimit (p : Params) : Nat := disparityLimitS * p.tickHz

/-- A leg fails when its instants differ by more than L (R237). -/
def legFails (p : Params) (a b : Word) : Bool :=
  disparityLimit p < (instant a - instant b).natAbs

/-- T3 is effectively zero: within one second of the NTP epoch (R238). -/
def transmitZero (p : Params) (t3 : Word) : Bool := (instant t3 - ntpEpoch p).natAbs < p.tickHz

/-- S = (T2 − T1) + (T3 − T4), exact ticks, twice the offset (R240). -/
def offsetTicks (b : Block) : Int :=
  (instant b.arg1 - instant b.arg0) + (instant b.arg2 - instant b.arg3)

/-- CLKOFF (R241), with the checks in the order of R239. -/
def clkoff (p : Params) (b : Block) : Block :=
  if legFails p b.arg1 b.arg0 then raiseDisparity Instr.clkoff.opc 1 b.arg0 b.arg1 b
  else if legFails p b.arg2 b.arg3 then raiseDisparity Instr.clkoff.opc 2 b.arg2 b.arg3 b
  else if transmitZero p b.arg2 then raise Instr.clkoff.opc .invalidTransmitTimestamp b
  else complete Instr.clkoff.opc false false
    ((b.setRes0 (wrap64 (offsetTicks b))).setRes1 (rn (offsetTicks b) (2 * ticksPerMs p)))

/-- The offset of CORRCLK in ticks, RNI(x · TICKS_PER_MS), one rounding (R250). -/
def correctionTicks (p : Params) (x : F64) : Int := rni (F64.num x * ticksPerMs p) (F64.den x)

/-- CORRCLK (R250). -/
def corrclk (p : Params) (b : Block) : Block :=
  if !F64.finite b.arg1 then raise Instr.corrclk.opc .rangeError b
  else if !fitsI64 (instant b.arg0 + correctionTicks p b.arg1) then
    raise Instr.corrclk.opc .rangeError b
  else complete Instr.corrclk.opc false false
    (b.setRes0 (wrap64 (instant b.arg0 + correctionTicks p b.arg1)))

/-- The meaning of VALID. -/
def execValid (s : State) : Host.Outcome State Fault Refusal :=
  .next (s.setBlock (valid s.block))

/-- The meaning of RTDELAY. -/
def execRtdelay (s : State) : Host.Outcome State Fault Refusal :=
  .next (s.setBlock (rtdelay Config.params s.block))

/-- The meaning of CLKOFF. -/
def execClkoff (s : State) : Host.Outcome State Fault Refusal :=
  .next (s.setBlock (clkoff Config.params s.block))

/-- The meaning of CORRCLK. -/
def execCorrclk (s : State) : Host.Outcome State Fault Refusal :=
  .next (s.setBlock (corrclk Config.params s.block))

end Sys2Proof.Machine
end

