-- ==== Sys2Proof/Machine/Views.lean ====
section
/-! DEFINITION. The header field views and the rendered reference identifier, functions of the inbound
buffer and CFG.SRC_IPV alone (10_state.md R47; 40_packet_codec.md R170 to R193). -/

namespace Sys2Proof.Machine

/-- The mode class (30_encoding.md R122): the raw mode for 1 to 5, 0 (Reserved) for 0, 6 and 7. -/
def modeClass (mode : BitVec 3) : Nat := if 1 ≤ mode.toNat ∧ mode.toNat ≤ 5 then mode.toNat else 0

/-- The stratum class (30_encoding.md R123): 0 KissOfDeath, 1 Primary, 2 Secondary, 3 Reserved. -/
def stratumClass (stratum : Byte) : Nat :=
  if stratum.toNat = 0 then 0 else if stratum.toNat = 1 then 1 else if stratum.toNat ≤ 15 then 2 else 3

/-- The reference-identifier class (40_packet_codec.md R185): 0 ASCII4, 1 IPV4, 2 HASH_HEX, 3 NA. -/
def refidClass (stratum : Byte) (ipv6 : Bool) : Nat :=
  match stratumClass stratum with
  | 0 | 1 => 0
  | 2 => if ipv6 then 2 else 1
  | _ => 3

/-- The ASCII digit of a value below 10. -/
def decimalDigit (n : Nat) : Byte := BitVec.ofNat 8 (0x30 + n)

/-- An octet's decimal value with no leading zeros (R188). -/
def decimal (v : Byte) : List Byte :=
  let n := v.toNat
  if n < 10 then [decimalDigit n]
  else if n < 100 then [decimalDigit (n / 10), decimalDigit (n % 10)]
  else [decimalDigit (n / 100), decimalDigit (n / 10 % 10), decimalDigit (n % 10)]

/-- An upper-case hexadecimal digit (R189). -/
def hexDigit (v : BitVec 4) : Byte :=
  BitVec.ofNat 8 (if v.toNat < 10 then 0x30 + v.toNat else 0x41 + (v.toNat - 10))

/-- The four octets verbatim (R187). -/
def renderAscii (inBuf : Memory) : List Byte := (List.range 4).map fun j => inBuf.read (12 + j)

/-- The dotted quad (R188); 0x2E is '.'. -/
def renderIpv4 (inBuf : Memory) : List Byte :=
  decimal (inBuf.read 12) ++ 0x2E :: decimal (inBuf.read 13) ++ 0x2E :: decimal (inBuf.read 14) ++
    0x2E :: decimal (inBuf.read 15)

/-- Eight hexadecimal digits, most significant first (R189). -/
def renderHex (inBuf : Memory) : List Byte :=
  (List.range 8).map fun j => hexDigit ((be32 inBuf 12).extractLsb' (28 - 4 * j) 4)

/-- The rendered reference identifier (R186); the last case is "N/A" (R190). -/
def renderRefid (inBuf : Memory) (ipv6 : Bool) : List Byte :=
  match refidClass (inBuf.read 1) ipv6 with
  | 0 => renderAscii inBuf
  | 1 => renderIpv4 inBuf
  | 2 => renderHex inBuf
  | _ => [0x4E, 0x2F, 0x41]

/-- TXT[j] (R186): 0 past the rendering. -/
def txtOctet (inBuf : Memory) (ipv6 : Bool) (j : Nat) : Byte := (renderRefid inBuf ipv6).getD j 0

/-- A root delay or dispersion in milliseconds, RN(v · 1000 / 65536) (R181, R183). -/
def fixed16Ms (v : BitVec 32) : F64 := rn (v.toNat * 1000 : Nat) 65536

/-- A precision in nanoseconds, RN(2^e · 10^9) (R179). -/
def precisionNs (e : Int) : F64 := rn (2 ^ e.toNat * 1000000000 : Nat) (2 ^ (-e).toNat)

/-- A view register's value (R170 to R192). -/
def viewValue (p : Params) (inBuf : Memory) (ipv6 : Bool) : View → Word
  | .li => (leapIndicator (inBuf.read 0)).zeroExtend 64
  | .vn => (versionNumber (inBuf.read 0)).zeroExtend 64
  | .mode => (modeField (inBuf.read 0)).zeroExtend 64
  | .modeClass => BitVec.ofNat 64 (modeClass (modeField (inBuf.read 0)))
  | .stratum => (inBuf.read 1).zeroExtend 64
  | .stratumClass => BitVec.ofNat 64 (stratumClass (inBuf.read 1))
  | .poll => (inBuf.read 2).zeroExtend 64
  | .pollS => rn (2 ^ (inBuf.read 2).toNat : Nat) 1
  | .precision => (inBuf.read 3).signExtend 64
  | .precisionNs => precisionNs (inBuf.read 3).toInt
  | .rootDelay => (be32 inBuf 4).zeroExtend 64
  | .rootDelayMs => fixed16Ms (be32 inBuf 4)
  | .rootDisp => (be32 inBuf 8).zeroExtend 64
  | .rootDispMs => fixed16Ms (be32 inBuf 8)
  | .refid => (be32 inBuf 12).zeroExtend 64
  | .refidClass => BitVec.ofNat 64 (refidClass (inBuf.read 1) ipv6)
  | .refidLen => BitVec.ofNat 64 (renderRefid inBuf ipv6).length
  | .refRaw => be64 inBuf 16
  | .t1Raw => be64 inBuf 24
  | .t2Raw => be64 inBuf 32
  | .t3Raw => be64 inBuf 40
  | .refTs => dec p (be64 inBuf 16)
  | .t1 => dec p (be64 inBuf 24)
  | .t2 => dec p (be64 inBuf 32)
  | .t3 => dec p (be64 inBuf 40)

/-- A view register's value in a block state: IN and CFG.SRC_IPV are all it reads (10_state.md R47). -/
def Block.view (p : Params) (b : Block) (v : View) : Word := viewValue p b.inBuf (srcIpv6 b) v

end Sys2Proof.Machine
end

