-- ==== Sys2Proof/Machine/PacketCodec.lean ====
section
/-! DEFINITION. The packet codec's commands (40_packet_codec.md R161 to R164, R195): each as a function
of the parameters and the block, and as the instruction's meaning at `Config.params`. -/

namespace Sys2Proof.Machine

/-- The request packet's 48 octets (R161): 0x23, 39 zeros, the transmit timestamp. -/
def requestOctets (raw : Word) : List Byte := 0x23 :: List.replicate 39 0 ++ octetsBE raw

/-- BUILDREQ (R161). -/
def buildreq (p : Params) (b : Block) : Block :=
  let e := enc p b.arg0
  complete Instr.buildreq.opc e.clamp false
    ((b.setOut (b.outBuf.writeList 0 (requestOctets e.raw))).setRes0 e.raw)

/-- ENCTS (R162). -/
def encts (p : Params) (b : Block) : Block :=
  let e := enc p b.arg0
  complete Instr.encts.opc e.clamp false (b.setRes0 e.raw)

/-- DECTS (R163). -/
def dects (p : Params) (b : Block) : Block :=
  complete Instr.dects.opc false false (b.setRes0 (dec p b.arg0))

/-- DECTSB at an octet offset (R164). -/
def dectsb (p : Params) (offset : Nat) (b : Block) : Block :=
  if fieldOutside p b offset then raise (Instr.dectsb offset).opc .malformedPacket b
  else complete (Instr.dectsb offset).opc false false (b.setRes0 (dec p (be64 b.inBuf offset)))

/-- DECHDR (R195): the four decoded timestamps, in the order T1, T2, T3, reference. -/
def dechdr (p : Params) (b : Block) : Block :=
  if headerShort b then raise Instr.dechdr.opc .malformedPacket b
  else complete Instr.dechdr.opc false false
    ((((b.setRes0 (b.view p .t1)).setRes1 (b.view p .t2)).setRes2 (b.view p .t3)).setRes3
      (b.view p .refTs))

/-- The meaning of BUILDREQ. -/
def execBuildreq (s : State) : Host.Outcome State Fault Refusal :=
  .next (s.setBlock (buildreq Config.params s.block))

/-- The meaning of ENCTS. -/
def execEncts (s : State) : Host.Outcome State Fault Refusal :=
  .next (s.setBlock (encts Config.params s.block))

/-- The meaning of DECTS. -/
def execDects (s : State) : Host.Outcome State Fault Refusal :=
  .next (s.setBlock (dects Config.params s.block))

/-- The meaning of DECTSB. -/
def execDectsb (offset : Nat) (s : State) : Host.Outcome State Fault Refusal :=
  .next (s.setBlock (dectsb Config.params offset s.block))

/-- The meaning of DECHDR. -/
def execDechdr (s : State) : Host.Outcome State Fault Refusal :=
  .next (s.setBlock (dechdr Config.params s.block))

end Sys2Proof.Machine
end

