-- ==== Sys2Proof/Machine/Dispatch.lean ====
section
/-! DEFINITION. Each command's meaning, one arm per constructor of `Instr`. -/

namespace Sys2Proof.Machine

def exec (i : Instr) (s : State) : Host.Outcome State Fault Refusal :=
  match i with
  | .buildreq => Sys2Proof.Machine.execBuildreq s
  | .encts => Sys2Proof.Machine.execEncts s
  | .dects => Sys2Proof.Machine.execDects s
  | .dectsb offset => Sys2Proof.Machine.execDectsb offset s
  | .dechdr => Sys2Proof.Machine.execDechdr s
  | .valid => Sys2Proof.Machine.execValid s
  | .rtdelay => Sys2Proof.Machine.execRtdelay s
  | .clkoff => Sys2Proof.Machine.execClkoff s
  | .corrclk => Sys2Proof.Machine.execCorrclk s

end Sys2Proof.Machine
end

