-- ==== Sys2Proof/Machine/HostPort.lean ====
section
/-! DEFINITION. The host's primitives (20_memory.md R81 to R86), reset (70_reset_and_hazards.md R310)
and the host's turn: one statement of its program (30_encoding.md R125). -/

namespace Sys2Proof.Machine

/-- The register an index names (10_state.md R31); 14, 15, 41 to 63 and every index above 63 name
none (R39, 20_memory.md R81, R82). -/
def Reg.ofIndex (r : Nat) : Reg :=
  match r with
  | 0 => .cmd | 1 => .status | 2 => .cfg | 3 => .inLen
  | 4 => .arg0 | 5 => .arg1 | 6 => .arg2 | 7 => .arg3
  | 8 => .res0 | 9 => .res1 | 10 => .res2 | 11 => .res3
  | 12 => .errA | 13 => .errB
  | 16 => .view .li | 17 => .view .vn | 18 => .view .mode | 19 => .view .modeClass
  | 20 => .view .stratum | 21 => .view .stratumClass | 22 => .view .poll | 23 => .view .pollS
  | 24 => .view .precision | 25 => .view .precisionNs | 26 => .view .rootDelay
  | 27 => .view .rootDelayMs | 28 => .view .rootDisp | 29 => .view .rootDispMs
  | 30 => .view .refid | 31 => .view .refidClass | 32 => .view .refidLen
  | 33 => .view .refRaw | 34 => .view .t1Raw | 35 => .view .t2Raw | 36 => .view .t3Raw
  | 37 => .view .refTs | 38 => .view .t1 | 39 => .view .t2 | 40 => .view .t3
  | _ => .reserved

/-- What a host read of a register returns (20_memory.md R81); CMD and reserved indices read 0. -/
def Block.readReg (p : Params) (b : Block) : Reg → Word
  | .cmd => 0
  | .status => b.status
  | .cfg => b.cfg
  | .inLen => b.inLen
  | .arg0 => b.arg0
  | .arg1 => b.arg1
  | .arg2 => b.arg2
  | .arg3 => b.arg3
  | .res0 => b.res0
  | .res1 => b.res1
  | .res2 => b.res2
  | .res3 => b.res3
  | .errA => b.errA
  | .errB => b.errB
  | .view v => b.view p v
  | .reserved => 0

/-- `HostRdReg` (R81). -/
def hostRdReg (p : Params) (b : Block) (r : Index) : Word := b.readReg p (Reg.ofIndex r.toNat)

/-- `HostRdIn` (R83). -/
def hostRdIn (p : Params) (b : Block) (i : Index) : Byte :=
  if i.toNat < p.pktInCap then b.inBuf.read i.toNat else 0

/-- `HostWrIn` (R84). -/
def hostWrIn (p : Params) (b : Block) (i : Index) (v : Byte) : Block :=
  if i.toNat < p.pktInCap then b.setIn (b.inBuf.write i.toNat v) else b

/-- `HostRdOut` (R85). -/
def hostRdOut (b : Block) (i : Index) : Byte := if i.toNat < 48 then b.outBuf.read i.toNat else 0

/-- `HostRdTxt` (R86). -/
def hostRdTxt (b : Block) (i : Index) : Byte :=
  if i.toNat < 16 then txtOctet b.inBuf (srcIpv6 b) i.toNat else 0

/-- A host write to a register other than CMD (R82): CFG, IN_LEN and ARG0 to ARG3 store, every other
register ignores it (10_state.md R39). -/
def Block.writeReg (b : Block) (v : Word) : Reg → Block
  | .cfg => b.setCfg v
  | .inLen => b.setInLen v
  | .arg0 => b.setArg0 v
  | .arg1 => b.setArg1 v
  | .arg2 => b.setArg2 v
  | .arg3 => b.setArg3 v
  | .cmd | .status | .res0 | .res1 | .res2 | .res3 | .errA | .errB | .view _ | .reserved => b

/-- The command a CMD write issues (30_encoding.md R111): the decoded command runs to completion, an
illegal word reports IllegalCommand (60_exceptions.md R286). -/
def command (w : Word) (s : State) : Host.Outcome State Fault Refusal :=
  match decode w with
  | .ok i => exec i s
  | .error _ => .next (s.setBlock (raiseIllegal w s.block))

/-- `HostWrReg` (20_memory.md R82). -/
def hostWrReg (r : Index) (v : Word) (s : State) : Host.Outcome State Fault Refusal :=
  match Reg.ofIndex r.toNat with
  | .cmd => command v s
  | reg => .next (s.setBlock (s.block.writeReg v reg))

/-- The host moves to another position of its program; the block is as before. -/
def State.setPos (s : State) (pos : Nat) : State := { s with host := { s.host with pos := pos } }

/-- The host keeps the value a read returned; the block is as before (20_memory.md R93). -/
def State.setReadVal (s : State) (v : Word) : State :=
  { s with host := { s.host with readVal := v } }

/-- The host's position moves past one statement. -/
def State.advance (s : State) : State := s.setPos (s.host.pos + 1)

/-- A read: the host keeps the value and moves on. -/
def hostRead (v : Word) (s : State) : Host.Outcome State Fault Refusal :=
  .next (s.advance.setReadVal v)

/-- One statement of the host's program (30_encoding.md R125). The host keeps the value each read
returns, an octet zero-extended; HALT leaves it at its statement for good. -/
def perform (p : Params) (stmt : HostStmt) (s : State) : Host.Outcome State Fault Refusal :=
  match stmt with
  | .wr r v => hostWrReg r v s.advance
  | .wrRead r => hostWrReg r s.host.readVal s.advance
  | .rd r => hostRead (hostRdReg p s.block r) s
  | .wrb i v => .next (s.advance.setBlock (hostWrIn p s.block i v))
  | .rdbIn i => hostRead ((hostRdIn p s.block i).zeroExtend 64) s
  | .rdbOut i => hostRead ((hostRdOut s.block i).zeroExtend 64) s
  | .rdbTxt i => hostRead ((hostRdTxt s.block i).zeroExtend 64) s
  | .jerr target =>
    if statusErr (hostRdReg p s.block 1) ≠ 0 then
      .next ((s.setPos target).setReadVal (hostRdReg p s.block 1))
    else hostRead (hostRdReg p s.block 1) s
  | .jmp target => .next (s.setPos target)
  | .halt => .next s
  | .reset => .next (s.advance.setBlock Block.reset)

/-- The statement the host performs next; none past the end of its program. -/
def State.stmt (s : State) : Option HostStmt := s.host.program[s.host.pos]?

/-- The host's turn. Past the end of its program the host does nothing, and the block never acts on
its own (20_memory.md R87), so the machine stays as it is. -/
def hostTurn (s : State) : Host.Outcome State Fault Refusal :=
  match s.stmt with
  | some stmt => perform Config.params stmt s
  | none => .next s

/-- The host's program is the one CMD write, about to be performed (log 4). -/
def State.withCommand (s : State) (w : Word) : State :=
  { s with host := { s.host with program := [.wr 0 w], pos := 0 } }

end Sys2Proof.Machine
end

