-- ==== Sys2Proof/Machine/Step.lean ====
section
/-! DEFINITION. The step: the host's turn, which runs a command when it writes CMD. -/

namespace Sys2Proof.Machine

/-- One step of the machine: the two agents take no other (20_memory.md R87). -/
def step (s : State) : Host.Outcome State Fault Refusal := hostTurn s

/-- The state whose next step issues the command word of `nbits` bits `w`. -/
def State.withFetchWord (s : State) (nbits w : Nat) : State := s.withCommand (commandWord nbits w)

end Sys2Proof.Machine
end

