-- ==== Sys2Proof/Machine/Script.lean ====
section
/-! DEFINITION. The pseudo-instructions of a host program and the exchange sequence
(30_encoding.md R126; 41_offset_calculator.md R252). -/

namespace Sys2Proof.Machine

/-- The register indices a script names (10_state.md R31). -/
def Script.cfgIndex : Index := 2
def Script.inLenIndex : Index := 3
def Script.argIndex (k : Fin 4) : Index := 4 + BitVec.ofNat 32 k
def Script.resIndex (k : Fin 4) : Index := 8 + BitVec.ofNat 32 k

/-- A decimal or hexadecimal literal: a negative one denotes its two's-complement pattern (R125). -/
def Script.intLiteral (x : Int) : Word := wrap64 x

/-- `f64(d)`: the pattern of RN of the decimal `num / den` (R125). -/
def Script.f64Literal (num : Int) (den : Nat) : Word := rn num den

/-- A command's mnemonic, and `DECTSB o`: `WR CMD, ` its word (R126). -/
def Script.command (i : Instr) : List HostStmt := [.wr 0 (encode i)]

/-- `LDPKT b0, b1, …`: the octets from index 0 upward, then their number into IN_LEN (R126). -/
def Script.ldpkt (octets : List Byte) : List HostStmt :=
  octets.mapIdx (fun i v => .wrb (BitVec.ofNat 32 i) v) ++
    [.wr Script.inLenIndex (BitVec.ofNat 64 octets.length)]

/-- `MOV ARGk, reg`: read the register, write the value read (R126). -/
def Script.mov (k : Fin 4) (reg : Index) : List HostStmt := [.rd reg, .wrRead (Script.argIndex k)]

/-- A command whose error ends the exchange: "any validation failure is terminal" (R252). -/
def Script.checked (i : Instr) (onError : Nat) : List HostStmt := Script.command i ++ [.jerr onError]

/-- The exchange as the host's straight line of commands (41_offset_calculator.md R252): build the
request; load the reply and its address family; DECHDR; VALID; the decoded T1 to T3 and the host's T4
into ARG0 to ARG3; CLKOFF, whose RES1 the host reads; RTDELAY; and, with the offset read, CORRCLK.
`onError` is the position where the host goes on after an error. -/
def Script.exchange (now t4 correctionNow : Word) (ipv6 : Bool) (reply : List Byte) (onError : Nat) :
    List HostStmt :=
  [.wr (Script.argIndex 0) now] ++ Script.command .buildreq ++
  Script.ldpkt reply ++ [.wr Script.cfgIndex (if ipv6 then 1 else 0)] ++
  Script.checked .dechdr onError ++ Script.checked .valid onError ++
  Script.mov 0 (Script.resIndex 0) ++ Script.mov 1 (Script.resIndex 1) ++
  Script.mov 2 (Script.resIndex 2) ++ [.wr (Script.argIndex 3) t4] ++
  Script.checked .clkoff onError ++
  [.rd (Script.resIndex 1)] ++ Script.command .rtdelay ++ [.wrRead (Script.argIndex 1)] ++
  [.wr (Script.argIndex 0) correctionNow] ++
  Script.checked .corrclk onError ++ [.halt]

end Sys2Proof.Machine
end

