-- ==== Sys2Proof/Safety.lean ====
section
/-! DEFINITION. What the claims are stated in: the value of a binary64 pattern, which STATUS words a
command can leave, the invariant of the machine, and a safe step. -/

namespace Sys2Proof.Machine

/-- The rational a finite binary64 pattern stands for: ± significand · 2^(exponent − 1075), the
exponent field of a subnormal value counting as 1 (IEEE 754, 00_scope.md R16, R17). -/
def F64.toRat (x : F64) : ℚ :=
  (if F64.negative x then -1 else 1) * F64.significand x * 2 ^ ((F64.scale x : ℤ) - 1075)

/-- `r` is RN(x) (00_scope.md R17): finite, no finite binary64 value is nearer to `x`, an even
significand where another value is as near, and +0 for an exact zero. -/
structure IsNearest (r : F64) (x : ℚ) : Prop where
  finite : F64.finite r = true
  nearest : ∀ y : F64, F64.finite y = true → |F64.toRat r - x| ≤ |F64.toRat y - x|
  even : ∀ y : F64, F64.finite y = true → |F64.toRat r - x| = |F64.toRat y - x| →
    F64.toRat y = F64.toRat r ∨ F64.significand r % 2 = 0
  zero : x = 0 → r = 0

/-- `k` is RNI(x) (00_scope.md R18): nearest to `x`, even on a tie. -/
structure IsNearestInt (k : Int) (x : ℚ) : Prop where
  nearest : |(k : ℚ) - x| ≤ 1 / 2
  even : |(k : ℚ) - x| = 1 / 2 → k % 2 = 0

/-- The number `n` octets from `o` stand for, the first the most significant (00_scope.md R15). -/
def beNat (m : Memory) (o : Nat) : Nat → Nat
  | 0 => 0
  | n + 1 => beNat m o n * 256 + (m.read (o + n)).toNat

/-- The octets of a number's decimal digits, without leading zeros (40_packet_codec.md R188). -/
def decimalText (n : Nat) : List Nat := (Nat.toDigits 10 n).map Char.toNat

/-- A STATUS word a command's end can leave, or the reset word: which flags go with which error and
which command (10_state.md R33; 60_exceptions.md R280, R281, R284, R287). -/
structure StatusLegal (w : Word) : Prop where
  /-- bits 15:12 and 63:24 are 0 -/
  reserved : statusReserved w = 0
  /-- code 7 and codes 10 to 255 are never written -/
  err : (statusErr w).toNat ≤ 9 ∧ statusErr w ≠ 7
  /-- CLAMP only for a completed BUILDREQ or ENCTS -/
  clamp : statusClamp w = true → statusErr w = 0 ∧ (statusLastOpc w = 1 ∨ statusLastOpc w = 2)
  /-- RANGE only for a completed RTDELAY -/
  range : statusRange w = true → statusErr w = 0 ∧ statusLastOpc w = 7
  /-- LEG is 1 or 2 on ClockDisparityTooLarge -/
  legSet : statusErr w = 5 → statusLeg w = 1 ∨ statusLeg w = 2
  /-- and 0 otherwise -/
  legClear : statusErr w ≠ 5 → statusLeg w = 0
  /-- MalformedPacket is raised by DECTSB, DECHDR and VALID only -/
  malformed : statusErr w = 1 → statusLastOpc w = 4 ∨ statusLastOpc w = 5 ∨ statusLastOpc w = 6
  /-- ClockNotSynchronized, InvalidVersion and UnexpectedMode by VALID only -/
  validation : statusErr w = 2 ∨ statusErr w = 3 ∨ statusErr w = 4 → statusLastOpc w = 6
  /-- ClockDisparityTooLarge and InvalidTransmitTimestamp by CLKOFF only -/
  offset : statusErr w = 5 ∨ statusErr w = 6 → statusLastOpc w = 8
  /-- RangeError by CORRCLK only -/
  rangeError : statusErr w = 9 → statusLastOpc w = 9
  /-- no error: one of the nine commands completed, or the word is the reset value -/
  completed : statusErr w = 0 → w = 0 ∨ (1 ≤ (statusLastOpc w).toNat ∧ (statusLastOpc w).toNat ≤ 9)

/-- The block's invariant: both buffers canonical and inside their capacity, CFG's reserved bits 0,
STATUS one a command can leave. -/
structure Block.Inv (p : Params) (b : Block) : Prop where
  inWf : b.inBuf.wf = true
  inWithin : b.inBuf.within p.pktInCap = true
  outWf : b.outBuf.wf = true
  outWithin : b.outBuf.within 48 = true
  cfgReserved : b.cfg.toNat < 2
  status : StatusLegal b.status

/-- The machine's invariant; the host's program, position and value are unconstrained. -/
def State.Inv (s : State) : Prop := s.block.Inv Config.params

/-- The host's next statement writes `w` to CMD, as a literal or as the value its latest read returned
(20_memory.md R82). -/
def State.WritesCmd (s : State) (w : Word) : Prop :=
  s.stmt = some (.wr 0 w) ∨ (s.stmt = some (.wrRead 0) ∧ s.host.readVal = w)

/-- A safe step: the machine goes on, and its invariant holds afterwards. -/
def SafeStep (s : State) : Prop := ∃ t, step s = .next t ∧ t.Inv

end Sys2Proof.Machine
end

