-- ==== Sys2Proof/Certificates/Slice0/Obligations.lean ====
section
/-! DEFINITION. The statements for the provers, each a rule of the spec or a consequence of its rules. -/

open Sys2Proof Sys2Proof.Machine

/-! ### The command word -/

/-- Decoding the word of a well-formed command gives the command back (30_encoding.md R110 to R113). -/
def Obligations.DecodeOfEncodeIsTheCommand : Prop :=
  ∀ i : Instr, i.wellFormed = true → decode (encode i) = .ok i

/-- A word that decodes is the word of the command it decodes to, so no two words name one command
(30_encoding.md R110 to R113). -/
def Obligations.EncodeOfDecodeIsTheWord : Prop :=
  ∀ (w : Word) (i : Instr), decode w = .ok i → i.wellFormed = true ∧ encode i = w

/-- Words written out from spec/opcode_table.json and 95_test_vectors.md 2.11. -/
def Obligations.TableWordsDecodeAsListed : Prop :=
  decode 0x0000000000000001 = .ok .buildreq ∧ decode 0x0000000000000002 = .ok .encts ∧
  decode 0x0000000000000003 = .ok .dects ∧ decode 0x0000000000000504 = .ok (.dectsb 5) ∧
  decode 0x0000000000003C04 = .ok (.dectsb 60) ∧ decode 0x0000000000000005 = .ok .dechdr ∧
  decode 0x0000000000000006 = .ok .valid ∧ decode 0x0000000000000007 = .ok .rtdelay ∧
  decode 0x0000000000000008 = .ok .clkoff ∧ decode 0x0000000000000009 = .ok .corrclk ∧
  decode 0x0000000000000000 = .error .reservedOpcode ∧
  decode 0x000000000000000A = .error .reservedOpcode ∧
  decode 0x0000000000000105 = .error .nonzeroImm8 ∧
  decode 0x8000000000000004 = .error .reservedField

/-- A write of `w` to CMD (30_encoding.md R111, R113 to R115): where RSV is not 0, OPC is reserved, or
IMM8 is not 0 on a command other than DECTSB, STATUS becomes ERR = 8 with LAST_OPC = bits 7:0 and
nothing else of the block changes (60_exceptions.md R286); otherwise the command of R112 runs. The host
goes on to its next statement. -/
def Obligations.CmdWriteRunsTheCommandOrIsIllegal : Prop :=
  ∀ (s : State) (w : Word), s.WritesCmd w →
    let opc := w.toNat % 256
    let imm := w.toNat / 256 % 256
    let rsv := w.toNat / 65536
    let s' : State := { s with host := { s.host with pos := s.host.pos + 1 } }
    (rsv ≠ 0 ∨ opc = 0 ∨ 9 < opc ∨ (opc ≠ 4 ∧ imm ≠ 0) →
      step s = .next { s' with
        block := { s.block with status := BitVec.ofNat 64 (8 + 65536 * opc) } }) ∧
    (rsv = 0 → opc = 4 → step s = exec (.dectsb imm) s') ∧
    (rsv = 0 → imm = 0 →
      (opc = 1 → step s = exec .buildreq s') ∧ (opc = 2 → step s = exec .encts s') ∧
      (opc = 3 → step s = exec .dects s') ∧ (opc = 5 → step s = exec .dechdr s') ∧
      (opc = 6 → step s = exec .valid s') ∧ (opc = 7 → step s = exec .rtdelay s') ∧
      (opc = 8 → step s = exec .clkoff s') ∧ (opc = 9 → step s = exec .corrclk s'))

/-- When the host's statement writes to CMD a word that decodes to `i`, the step is `exec i` with the
host moved past the statement (20_memory.md R82, 30_encoding.md R111). -/
def Obligations.StepRunsTheDecodedCommand : Prop :=
  ∀ (s : State) (w : Word) (i : Instr), s.WritesCmd w → decode w = .ok i →
    step s = exec i { s with host := { s.host with pos := s.host.pos + 1 } }

/-! ### STATUS and the end of a command -/

/-- At the end of every command, legal or illegal, STATUS is written as a whole (60_exceptions.md
R284): its fields, which command sets which, and what is written only with which error. -/
def Obligations.CommandEndWritesStatus : Prop :=
  ∀ (s t : State) (w : Word), s.WritesCmd w → step s = .next t →
    ∃ err clamp range leg : Nat,
      t.block.status.toNat =
        err + 2 ^ 8 * clamp + 2 ^ 9 * range + 2 ^ 10 * leg + 2 ^ 16 * (w.toNat % 256) ∧
      (err ≤ 6 ∨ err = 8 ∨ err = 9) ∧ clamp ≤ 1 ∧ range ≤ 1 ∧ leg ≤ 2 ∧
      (clamp = 1 ↔ (decode w = .ok .buildreq ∨ decode w = .ok .encts) ∧
        (enc Config.params s.block.arg0).clamp = true) ∧
      (range = 1 ↔ decode w = .ok .rtdelay ∧
        ¬(-2 ^ 63 ≤ delayTicks s.block ∧ delayTicks s.block < 2 ^ 63)) ∧
      (leg ≠ 0 ↔ err = 5) ∧
      (err ≠ 0 → t.block.res0 = s.block.res0 ∧ t.block.res1 = s.block.res1 ∧
        t.block.res2 = s.block.res2 ∧ t.block.res3 = s.block.res3) ∧
      (err ≠ 5 → t.block.errA = s.block.errA ∧ t.block.errB = s.block.errB)

/-- No command reads a flag and each rewrites all of them (10_state.md R46): the outcome of a command,
and of a write of any word to CMD, is the same whatever STATUS held. -/
def Obligations.NoCommandReadsAFlag : Prop :=
  (∀ (i : Instr) (s : State) (v : Word),
    exec i { s with block := { s.block with status := v } } = exec i s) ∧
  ∀ (s : State) (w v : Word), s.WritesCmd w →
    step { s with block := { s.block with status := v } } = step s

/-- Which commands can raise which errors (60_exceptions.md section 1), by the code STATUS.ERR holds
after the command: no other, and each of those in some state; and every operation code is that of some
illegal word. -/
def Obligations.ErrorsOfEachCommand : Prop :=
  (∀ (i : Instr) (s t : State), exec i s = .next t →
    let err := t.block.status.toNat % 256
    match i with
    | .buildreq | .encts | .dects | .rtdelay => err = 0
    | .dectsb _ | .dechdr => err = 0 ∨ err = 1
    | .valid => err ≤ 4
    | .clkoff => err = 0 ∨ err = 5 ∨ err = 6
    | .corrclk => err = 0 ∨ err = 9) ∧
  (∀ raised ∈ [(Instr.dectsb 0, 1), (.dechdr, 1), (.valid, 1), (.valid, 2), (.valid, 3), (.valid, 4),
      (.clkoff, 5), (.clkoff, 6), (.corrclk, 9)],
    ∃ s t : State, exec raised.1 s = .next t ∧ t.block.status.toNat % 256 = raised.2) ∧
  ∀ opc < 256, ∃ w : Word, w.toNat % 256 = opc ∧ ∀ i : Instr, decode w ≠ .ok i

/-- An error changes neither the operands nor the buffers nor a result register (60_exceptions.md
R285), for a command and for an illegal word alike. -/
def Obligations.ErrorLeavesOperandsAndResults : Prop :=
  ∀ (s t : State) (w : Word), s.WritesCmd w → step s = .next t →
    t.block.status.toNat % 256 ≠ 0 →
    t.block = { s.block with
      status := t.block.status
      errA := t.block.errA
      errB := t.block.errB }

/-- What a command may write (10_state.md R36 to R38, R40 to R42): the operands, IN and the host never;
OUT only BUILDREQ; ERR_A and ERR_B only CLKOFF; of the result registers those its rule names. -/
def Obligations.CommandsWriteOnlyWhatTheyName : Prop :=
  ∀ (i : Instr) (s t : State), exec i s = .next t →
    t.host = s.host ∧ t.block.cfg = s.block.cfg ∧ t.block.inLen = s.block.inLen ∧
    t.block.arg0 = s.block.arg0 ∧ t.block.arg1 = s.block.arg1 ∧ t.block.arg2 = s.block.arg2 ∧
    t.block.arg3 = s.block.arg3 ∧ t.block.inBuf = s.block.inBuf ∧
    (i ≠ .buildreq → t.block.outBuf = s.block.outBuf) ∧
    (i ≠ .clkoff → t.block.errA = s.block.errA ∧ t.block.errB = s.block.errB) ∧
    (i = .valid → t.block.res0 = s.block.res0) ∧
    (i ≠ .dechdr → i ≠ .rtdelay → i ≠ .clkoff → t.block.res1 = s.block.res1) ∧
    (i ≠ .dechdr → t.block.res2 = s.block.res2 ∧ t.block.res3 = s.block.res3)

/-! ### Rounding -/

/-- `rn` rounds to the nearest binary64 value, ties to an even significand, an exact zero to +0, for
every rational that rounds to a finite value; and integer conversion, addition and multiplication of
finite values, and division of a finite value by a positive finite one, are `rn` of the exact result, as
whatever fraction it is written (00_scope.md section 5, R17). Division by a positive value is the only
one that a rule uses (40_packet_codec.md R153). -/
def Obligations.RoundingIsToNearestTiesToEven : Prop :=
  (∀ (a : Int) (b : Nat), 0 < b → |(a : ℚ) / b| < 2 ^ 1024 - 2 ^ 970 → IsNearest (rn a b) (a / b)) ∧
  (∀ (n a : Int) (b : Nat), 0 < b → (n : ℚ) = a / b → fcvt n = rn a b) ∧
  ∀ x y : F64, F64.finite x = true → F64.finite y = true → ∀ (a : Int) (b : Nat), 0 < b →
    (F64.toRat x + F64.toRat y = a / b → fadd x y = rn a b) ∧
    (F64.toRat x * F64.toRat y = a / b → fmul x y = rn a b) ∧
    (0 < F64.toRat y → F64.toRat x / F64.toRat y = a / b → fdiv x y = rn a b)

/-- `rni` is the nearest integer, ties to the even one (00_scope.md R18). -/
def Obligations.IntegerRoundingIsToNearestEven : Prop :=
  ∀ (a : Int) (b : Nat), 0 < b → IsNearestInt (rni a b) ((a : ℚ) / b)

/-! ### The timestamp converter -/

/-- ENC (40_packet_codec.md R152): an Instant before the NTP epoch clamps to 0. From the epoch on the
NTP64 value is the low 32 bits of the whole seconds and the fraction side by side, so a delta of 2^32 s
or more wraps, and the clamp bit says that it does. The whole seconds are the floor of the binary64
count under BINARY64 and of the exact one under EXACT (R151). -/
def Obligations.EncClampsAndPacks : Prop :=
  ∀ (p : Params), p.legal = true → ∀ t : Word,
    (t.toInt < ntpEpoch p → enc p t = { raw := 0, clamp := true }) ∧
    (ntpEpoch p ≤ t.toInt →
      let n := (t.toInt - ntpEpoch p).toNat
      let e := encBody p n
      let seconds : Int :=
        match p.encodeArith with
        | .binary64 => ⌊F64.toRat (fdiv (fcvt n) (fcvt p.tickHz))⌋
        | .exact => n / p.tickHz
      0 ≤ seconds ∧ (e.s32 : Int) = seconds % 2 ^ 32 ∧ e.f32 < 2 ^ 32 ∧
        (enc p t).raw.toNat = e.s32 * 2 ^ 32 + e.f32 ∧
        ((enc p t).clamp = true ↔ 2 ^ 32 ≤ seconds))

/-- ENC_BODY for BINARY64 (40_packet_codec.md R153): the delta converted and divided with one binary64
rounding each; its floor; and each fraction octet scaled, truncated and masked by itself. -/
def Obligations.EncBinary64FollowsThePipeline : Prop :=
  ∀ (p : Params), p.legal = true → ∀ n : Nat, n < 2 ^ 64 →
    ∃ fn hz d : F64,
      IsNearest fn n ∧ IsNearest hz p.tickHz ∧ F64.toRat hz = p.tickHz ∧
      IsNearest d (F64.toRat fn / F64.toRat hz) ∧
      let e := encBodyBinary64 p n
      let octet (k : Nat) : Int := ⌊(F64.toRat d - ⌊F64.toRat d⌋) * 2 ^ (8 * k)⌋ % 256
      (e.wrap = true ↔ 2 ^ 32 ≤ ⌊F64.toRat d⌋) ∧ (e.s32 : Int) = ⌊F64.toRat d⌋ % 2 ^ 32 ∧
        (e.f32 : Int) = octet 1 * 2 ^ 24 + octet 2 * 2 ^ 16 + octet 3 * 2 ^ 8 + octet 4

/-- The four independent octets of BINARY64 are one 32-bit fraction split into octets, and from 2^31 s
on the fraction is a multiple of 2^11 (40_packet_codec.md section 1, R155). -/
def Obligations.EncBinary64FractionIsOneFraction : Prop :=
  ∀ (p : Params), p.legal = true → ∀ n : Nat, n < 2 ^ 64 →
    let d := fdiv (fcvt n) (fcvt p.tickHz)
    ((encBodyBinary64 p n).f32 : Int) = ⌊(F64.toRat d - ⌊F64.toRat d⌋) * 2 ^ 32⌋ ∧
      (2 ^ 31 ≤ F64.toRat d → (encBodyBinary64 p n).f32 % 2 ^ 11 = 0)

/-- ENC under EXACT (40_packet_codec.md R152, R154): from the NTP epoch on the NTP64 value is the delta
in units of 2^−32 s, truncated, modulo 2^64, and the clamp bit says that the delta is 2^32 s or more. -/
def Obligations.EncExactIsTheTruncatedDelta : Prop :=
  ∀ (p : Params), p.legal = true → p.encodeArith = .exact → ∀ t : Word, ntpEpoch p ≤ t.toInt →
    ((enc p t).raw.toNat : Int) = (t.toInt - ntpEpoch p) * 2 ^ 32 / p.tickHz % 2 ^ 64 ∧
      ((enc p t).clamp = true ↔ 2 ^ 32 * (p.tickHz : Int) ≤ t.toInt - ntpEpoch p)

/-- ENC of an Instant at or after the end of era 0 sets the clamp bit, in either arithmetic
(40_packet_codec.md R152, R160). -/
def Obligations.EncAfterEraZeroSetsClamp : Prop :=
  ∀ (p : Params), p.legal = true → ∀ t : Word, ntpEpoch p + 2 ^ 32 * p.tickHz ≤ t.toInt →
    (enc p t).clamp = true

/-- DEC (40_packet_codec.md R156): under BINARY64 one rounding of seconds plus fraction, one of the
product with TICK_HZ, one to an integer; under EXACT one rounding of the exact product. -/
def Obligations.DecFollowsThePipeline : Prop :=
  ∀ (p : Params), p.legal = true → ∀ raw : Word,
    (dec p raw).toInt = ntpEpoch p + decBody p raw ∧
    (p.decodeArith = .binary64 → ∃ delta ticks : F64,
      IsNearest delta ((raw.toNat / 2 ^ 32 : Nat) + (raw.toNat % 2 ^ 32 : Nat) / 2 ^ 32) ∧
      IsNearest ticks (F64.toRat delta * p.tickHz) ∧
      IsNearestInt (decBody p raw) (F64.toRat ticks)) ∧
    (p.decodeArith = .exact → IsNearestInt (decBody p raw) ((raw.toNat : ℚ) * p.tickHz / 2 ^ 32))

/-- The range of DEC under both variants, and its ends (40_packet_codec.md R158). -/
def Obligations.DecStaysInEraZero : Prop :=
  ∀ (p : Params), p.legal = true →
    (∀ raw : Word, ntpEpoch p ≤ (dec p raw).toInt ∧
      (dec p raw).toInt ≤ ntpEpoch p + 2 ^ 32 * p.tickHz) ∧
    (dec p 0).toInt = ntpEpoch p ∧
    (dec p (BitVec.ofNat 64 (2 ^ 64 - 1))).toInt = ntpEpoch p + 2 ^ 32 * p.tickHz

/-- The round trip is exact when both variants are EXACT (40_packet_codec.md R159; every legal TICK_HZ
is below 2^31). -/
def Obligations.ExactRoundTripIsTheIdentity : Prop :=
  ∀ (p : Params), p.legal = true → p.encodeArith = .exact → p.decodeArith = .exact →
    ∀ t : Word, (enc p t).clamp = false → dec p (enc p t).raw = t

/-- The round trip is within 10 ticks, 1 µs, when both variants are BINARY64 and TICK_HZ = 10^7
(40_packet_codec.md R159). -/
def Obligations.Binary64RoundTripIsWithinAMicrosecond : Prop :=
  ∀ t : Word, (enc Config.params t).clamp = false →
    ((dec Config.params (enc Config.params t).raw).toInt - t.toInt).natAbs ≤ 10

/-- Multi-octet fields are big-endian (00_scope.md R15). -/
def Obligations.FieldsAreBigEndian : Prop :=
  ∀ (m : Memory) (o : Nat),
    (be32 m o).toNat = (m.read o).toNat * 2 ^ 24 + (m.read (o + 1)).toNat * 2 ^ 16 +
      (m.read (o + 2)).toNat * 2 ^ 8 + (m.read (o + 3)).toNat ∧
    (be64 m o).toNat = (be32 m o).toNat * 2 ^ 32 + (be32 m (o + 4)).toNat

/-! ### The packet codec's commands -/

/-- BUILDREQ (40_packet_codec.md R161): the request's 48 octets, RES0, STATUS, and nothing else. -/
def Obligations.BuildreqBuildsTheRequest : Prop :=
  ∀ s : State, s.block.outBuf.wf = true →
    let e := enc Config.params s.block.arg0
    ∃ t, exec .buildreq s = .next t ∧ t.host = s.host ∧
      t.block.outBuf.read 0 = 0x23 ∧ (∀ i, 1 ≤ i → i ≤ 39 → t.block.outBuf.read i = 0) ∧
      (∀ j ≤ 7, (t.block.outBuf.read (40 + j)).toNat = e.raw.toNat / 2 ^ (56 - 8 * j) % 256) ∧
      (∀ a, 48 ≤ a → t.block.outBuf.read a = s.block.outBuf.read a) ∧
      t.block.res0 = e.raw ∧ t.block.status.toNat = 0x10000 + 2 ^ 8 * e.clamp.toNat ∧
      t.block = { s.block with
        outBuf := t.block.outBuf
        res0 := t.block.res0
        status := t.block.status }

/-- Nothing of an earlier request survives a BUILDREQ (40_packet_codec.md R161): OUT depends on ARG0
alone. -/
def Obligations.BuildreqErasesTheEarlierRequest : Prop :=
  ∀ s s' t t' : State, s.Inv → s'.Inv → s.block.arg0 = s'.block.arg0 →
    exec .buildreq s = .next t → exec .buildreq s' = .next t' → t.block.outBuf = t'.block.outBuf

/-- The transmit timestamp in OUT, read as a big-endian field, is the value in RES0
(40_packet_codec.md R161, 20_memory.md R89). -/
def Obligations.RequestTimestampIsRes0 : Prop :=
  ∀ s t : State, s.block.outBuf.wf = true → exec .buildreq s = .next t →
    be64 t.block.outBuf 40 = t.block.res0

/-- ENCTS (40_packet_codec.md R162). -/
def Obligations.EnctsEncodesArg0 : Prop :=
  ∀ s : State,
    let e := enc Config.params s.block.arg0
    ∃ t, exec .encts s = .next t ∧ t.host = s.host ∧ t.block.res0 = e.raw ∧
      t.block.status.toNat = 0x20000 + 2 ^ 8 * e.clamp.toNat ∧
      t.block = { s.block with res0 := t.block.res0, status := t.block.status }

/-- DECTS (40_packet_codec.md R163): RES0 is the decoded Instant, with no wrap. -/
def Obligations.DectsDecodesArg0 : Prop :=
  ∀ s : State, ∃ t, exec .dects s = .next t ∧ t.host = s.host ∧
    t.block.res0.toInt = -22089888000000000 + decBody Config.params s.block.arg0 ∧
    t.block.status.toNat = 0x30000 ∧
    t.block = { s.block with res0 := t.block.res0, status := t.block.status }

/-- DECTSB (40_packet_codec.md R164): the field at the offset if it lies inside the received and the
stored octets, else MalformedPacket with RES0 unchanged. -/
def Obligations.DectsbDecodesTheFieldOrIsMalformed : Prop :=
  ∀ (s : State) (o : Nat),
    (o + 8 ≤ s.block.inLen.toNat → o + 8 ≤ 68 →
      ∃ t, exec (.dectsb o) s = .next t ∧ t.host = s.host ∧
        t.block.res0.toInt = -22089888000000000 +
          decBody Config.params (BitVec.ofNat 64 (beNat s.block.inBuf o 8)) ∧
        t.block.status.toNat = 0x40000 ∧
        t.block = { s.block with res0 := t.block.res0, status := t.block.status }) ∧
    (s.block.inLen.toNat < o + 8 ∨ 68 < o + 8 →
      exec (.dectsb o) s = .next { s with block := { s.block with status := 0x40001 } })

/-- DECHDR (40_packet_codec.md R195): T1, T2, T3 and the reference timestamp, or MalformedPacket with
every result unchanged. -/
def Obligations.DechdrDecodesTheTimestampsOrIsMalformed : Prop :=
  ∀ s : State,
    (48 ≤ s.block.inLen.toNat →
      let at' (o : Nat) : Int :=
        -22089888000000000 + decBody Config.params (BitVec.ofNat 64 (beNat s.block.inBuf o 8))
      ∃ t, exec .dechdr s = .next t ∧ t.host = s.host ∧
        t.block.res0.toInt = at' 24 ∧ t.block.res1.toInt = at' 32 ∧
        t.block.res2.toInt = at' 40 ∧ t.block.res3.toInt = at' 16 ∧
        t.block.status.toNat = 0x50000 ∧
        t.block = { s.block with
          res0 := t.block.res0
          res1 := t.block.res1
          res2 := t.block.res2
          res3 := t.block.res3
          status := t.block.status }) ∧
    (s.block.inLen.toNat < 48 →
      exec .dechdr s = .next { s with block := { s.block with status := 0x50001 } })

/-- Decoding the same buffer twice gives the same fields (40_packet_codec.md R194): a second DECHDR
leaves the state as the first did. -/
def Obligations.SecondDechdrChangesNothing : Prop :=
  ∀ s t : State, exec .dechdr s = .next t → exec .dechdr t = .next t

/-! ### The offset calculator's commands -/

/-- VALID (41_offset_calculator.md R231): the first failing check of (a) length, (b) LI, (c) VN, (d)
mode is the one reported, and STATUS is all that is written. -/
def Obligations.ValidReportsTheFirstFailingCheck : Prop :=
  ∀ s : State,
    let octet0 := (s.block.inBuf.read 0).toNat
    let err : Nat :=
      if s.block.inLen.toNat < 48 then 1
      else if octet0 / 64 = 3 then 2
      else if octet0 / 8 % 8 = 0 then 3
      else if octet0 % 8 = 4 ∨ octet0 % 8 = 5 then 0
      else 4
    exec .valid s =
      .next { s with block := { s.block with status := BitVec.ofNat 64 (0x60000 + err) } }

/-- VALID reads IN_LEN and IN[0] only: not CFG (41_offset_calculator.md R233), not the stratum (R232),
no other octet (20_memory.md R94). -/
def Obligations.ValidReadsLengthAndFirstOctetOnly : Prop :=
  ∀ s s' t t' : State, s.block.inLen = s'.block.inLen →
    s.block.inBuf.read 0 = s'.block.inBuf.read 0 →
    exec .valid s = .next t → exec .valid s' = .next t' → t.block.status = t'.block.status

/-- RTDELAY (41_offset_calculator.md R236): D from exact integers, wrapped to 64 bits with RANGE when
it does not fit, and D in milliseconds with one rounding. -/
def Obligations.RtdelayReturnsTheDelay : Prop :=
  ∀ s : State,
    let d := (s.block.arg3.toInt - s.block.arg0.toInt) - (s.block.arg2.toInt - s.block.arg1.toInt)
    ∃ t, exec .rtdelay s = .next t ∧ t.host = s.host ∧
      t.block.res0.toInt = Int.bmod d (2 ^ 64) ∧
      IsNearest t.block.res1 ((d : ℚ) / 10000) ∧
      t.block.status.toNat = 0x70000 + (if -2 ^ 63 ≤ d ∧ d ≤ 2 ^ 63 - 1 then 0 else 2 ^ 9) ∧
      t.block = { s.block with
        res0 := t.block.res0
        res1 := t.block.res1
        status := t.block.status }

/-- CLKOFF (41_offset_calculator.md R241): leg 1, leg 2, then the transmit timestamp; if all pass, S
and the offset in milliseconds with one rounding. -/
def Obligations.ClkoffChecksThenReturnsTheOffset : Prop :=
  ∀ s : State,
    let t1 := s.block.arg0.toInt
    let t2 := s.block.arg1.toInt
    let t3 := s.block.arg2.toInt
    let t4 := s.block.arg3.toInt
    let sum := (t2 - t1) + (t3 - t4)
    (10722240000000000 < |t2 - t1| →
      exec .clkoff s = .next { s with
        block := { s.block with
          errA := s.block.arg0, errB := s.block.arg1, status := 0x80405 } }) ∧
    (|t2 - t1| ≤ 10722240000000000 → 10722240000000000 < |t3 - t4| →
      exec .clkoff s = .next { s with
        block := { s.block with
          errA := s.block.arg2, errB := s.block.arg3, status := 0x80805 } }) ∧
    (|t2 - t1| ≤ 10722240000000000 → |t3 - t4| ≤ 10722240000000000 →
      |t3 - (-22089888000000000)| < 10000000 →
      exec .clkoff s = .next { s with block := { s.block with status := 0x80006 } }) ∧
    (|t2 - t1| ≤ 10722240000000000 → |t3 - t4| ≤ 10722240000000000 →
      10000000 ≤ |t3 - (-22089888000000000)| →
      ∃ t, exec .clkoff s = .next t ∧ t.host = s.host ∧ t.block.res0.toInt = sum ∧
        IsNearest t.block.res1 ((sum : ℚ) / (2 * 10000)) ∧ t.block.status.toNat = 0x80000 ∧
        t.block = { s.block with
          res0 := t.block.res0
          res1 := t.block.res1
          status := t.block.status })

/-- When both legs pass, S fits in i64 for every legal TICK_HZ, RES0 is S exactly, and CLKOFF never sets
RANGE (41_offset_calculator.md R247). -/
def Obligations.ClkoffSumFitsAndRangeIsClear : Prop :=
  ∀ (p : Params), p.legal = true → ∀ b : Block,
    let limit : Int := 1072224000 * p.tickHz
    let sum := (b.arg1.toInt - b.arg0.toInt) + (b.arg2.toInt - b.arg3.toInt)
    statusRange (clkoff p b).status = false ∧
    (|b.arg1.toInt - b.arg0.toInt| ≤ limit → |b.arg2.toInt - b.arg3.toInt| ≤ limit →
      |sum| ≤ 2 * limit ∧ 2 * limit < 2 ^ 63 ∧
      ((p.tickHz : Int) ≤ |b.arg2.toInt - ntpEpoch p| → (clkoff p b).res0.toInt = sum))

/-- CORRCLK (41_offset_calculator.md R250): RangeError for a NaN or infinite offset or a result outside
i64; else now plus the offset in ticks, rounded once, ties to even. -/
def Obligations.CorrclkAddsTheRoundedOffset : Prop :=
  ∀ s : State,
    (s.block.arg1.toNat / 2 ^ 52 % 2 ^ 11 = 2047 →
      exec .corrclk s = .next { s with block := { s.block with status := 0x90009 } }) ∧
    (s.block.arg1.toNat / 2 ^ 52 % 2 ^ 11 ≠ 2047 → ∀ k : Int,
      IsNearestInt k (F64.toRat s.block.arg1 * 10000) →
      let r := s.block.arg0.toInt + k
      (r < -2 ^ 63 ∨ 2 ^ 63 - 1 < r →
        exec .corrclk s = .next { s with block := { s.block with status := 0x90009 } }) ∧
      (-2 ^ 63 ≤ r → r ≤ 2 ^ 63 - 1 →
        ∃ t, exec .corrclk s = .next t ∧ t.host = s.host ∧ t.block.res0.toInt = r ∧
          t.block.status.toNat = 0x90000 ∧
          t.block = { s.block with res0 := t.block.res0, status := t.block.status }))

/-! ### The views -/

/-- V_LI, V_VN, V_MODE and V_MODE_CLASS (40_packet_codec.md R170 to R173). -/
def Obligations.OctetZeroViews : Prop :=
  ∀ (p : Params) (b : Block),
    let octet0 := (b.inBuf.read 0).toNat
    (hostRdReg p b 16).toNat = octet0 / 64 ∧ (hostRdReg p b 17).toNat = octet0 / 8 % 8 ∧
    (hostRdReg p b 18).toNat = octet0 % 8 ∧
    (hostRdReg p b 19).toNat = if 1 ≤ octet0 % 8 ∧ octet0 % 8 ≤ 5 then octet0 % 8 else 0

/-- V_STRATUM, V_STRATUM_CLASS, V_POLL, V_POLL_S, V_PRECISION, V_ROOT_DELAY and V_ROOT_DISP
(40_packet_codec.md R174 to R178, R180, R182). -/
def Obligations.StratumPollPrecisionAndRootViews : Prop :=
  ∀ (p : Params) (b : Block),
    let stratum := (b.inBuf.read 1).toNat
    let poll := (b.inBuf.read 2).toNat
    (hostRdReg p b 20).toNat = stratum ∧
    (hostRdReg p b 21).toNat =
      (if stratum = 0 then 0 else if stratum = 1 then 1 else if stratum ≤ 15 then 2 else 3) ∧
    (hostRdReg p b 22).toNat = poll ∧
    F64.finite (hostRdReg p b 23) = true ∧ F64.toRat (hostRdReg p b 23) = 2 ^ poll ∧
    (hostRdReg p b 24).toInt = (b.inBuf.read 3).toInt ∧
    (hostRdReg p b 26).toNat = beNat b.inBuf 4 4 ∧ (hostRdReg p b 28).toNat = beNat b.inBuf 8 4

/-- V_PRECISION_NS, V_ROOT_DELAY_MS and V_ROOT_DISP_MS are the rounded rationals and, as the spec
derives, exact (40_packet_codec.md section 3, R179, R181, R183). -/
def Obligations.ScaledViewsAreExact : Prop :=
  ∀ (p : Params) (b : Block),
    let exactly (r : F64) (x : ℚ) : Prop := IsNearest r x ∧ F64.toRat r = x
    exactly (hostRdReg p b 25) ((2 : ℚ) ^ (b.inBuf.read 3).toInt * 1000000000) ∧
    exactly (hostRdReg p b 27) ((beNat b.inBuf 4 4 : ℚ) * 1000 / 65536) ∧
    exactly (hostRdReg p b 29) ((beNat b.inBuf 8 4 : ℚ) * 1000 / 65536)

/-- V_REFID and V_REFID_CLASS (40_packet_codec.md R184, R185). -/
def Obligations.ReferenceIdentifierClassView : Prop :=
  ∀ (p : Params) (b : Block),
    let stratum := (b.inBuf.read 1).toNat
    (hostRdReg p b 30).toNat = beNat b.inBuf 12 4 ∧
    (hostRdReg p b 31).toNat =
      if stratum ≤ 1 then 0
      else if stratum ≤ 15 then (if b.cfg.toNat % 2 = 0 then 1 else 2)
      else 3

/-- The reference identifier rendered verbatim, in hexadecimal and as "N/A", with its length, and 0
past it (40_packet_codec.md R186, R187, R189, R190). -/
def Obligations.ReferenceIdentifierAsciiHexAndNa : Prop :=
  ∀ (p : Params) (b : Block),
    let txt (j : Nat) : Nat := (hostRdTxt b (BitVec.ofNat 32 j)).toNat
    let digit (j : Nat) : Nat := beNat b.inBuf 12 4 / 16 ^ (7 - j) % 16
    (hostRdReg p b 31 = 0 → hostRdReg p b 32 = 4 ∧
      (∀ j < 4, txt j = (b.inBuf.read (12 + j)).toNat) ∧ ∀ j, 4 ≤ j → j ≤ 15 → txt j = 0) ∧
    (hostRdReg p b 31 = 2 → hostRdReg p b 32 = 8 ∧
      (∀ j < 8, txt j = if digit j < 10 then 0x30 + digit j else 0x41 + (digit j - 10)) ∧
      ∀ j, 8 ≤ j → j ≤ 15 → txt j = 0) ∧
    (hostRdReg p b 31 = 3 → hostRdReg p b 32 = 3 ∧
      txt 0 = 0x4E ∧ txt 1 = 0x2F ∧ txt 2 = 0x41 ∧ ∀ j, 3 ≤ j → j ≤ 15 → txt j = 0)

/-- The reference identifier rendered as a dotted quad (40_packet_codec.md R188): the decimal digits of
the four octets, no leading zeros, '.' between them, 7 to 15 characters, and 0 past them. -/
def Obligations.ReferenceIdentifierDottedQuad : Prop :=
  ∀ (p : Params) (b : Block), hostRdReg p b 31 = 1 →
    let text : List Nat :=
      decimalText (b.inBuf.read 12).toNat ++ 0x2E :: decimalText (b.inBuf.read 13).toNat ++
        0x2E :: decimalText (b.inBuf.read 14).toNat ++ 0x2E :: decimalText (b.inBuf.read 15).toNat
    (hostRdReg p b 32).toNat = text.length ∧ 7 ≤ text.length ∧ text.length ≤ 15 ∧
    ∀ j ≤ 15, (hostRdTxt b (BitVec.ofNat 32 j)).toNat = text.getD j 0

/-- The raw timestamp views and their decoded Instants (40_packet_codec.md R191, R192). -/
def Obligations.TimestampViews : Prop :=
  ∀ (p : Params) (b : Block),
    (hostRdReg p b 33).toNat = beNat b.inBuf 16 8 ∧ (hostRdReg p b 34).toNat = beNat b.inBuf 24 8 ∧
    (hostRdReg p b 35).toNat = beNat b.inBuf 32 8 ∧ (hostRdReg p b 36).toNat = beNat b.inBuf 40 8 ∧
    hostRdReg p b 37 = dec p (BitVec.ofNat 64 (beNat b.inBuf 16 8)) ∧
    hostRdReg p b 38 = dec p (BitVec.ofNat 64 (beNat b.inBuf 24 8)) ∧
    hostRdReg p b 39 = dec p (BitVec.ofNat 64 (beNat b.inBuf 32 8)) ∧
    hostRdReg p b 40 = dec p (BitVec.ofNat 64 (beNat b.inBuf 40 8))

/-- The views and TXT are functions of IN[0..47] and CFG.SRC_IPV, and of the views only the
reference-identifier ones read CFG (10_state.md R47, 40_packet_codec.md R193). -/
def Obligations.ViewsReadTheHeaderAndSrcIpvOnly : Prop :=
  ∀ (p : Params) (b b' : Block), (∀ i < 48, b.inBuf.read i = b'.inBuf.read i) →
    (∀ r : Index, 16 ≤ r.toNat → r.toNat ≤ 40 → r ≠ 31 → r ≠ 32 →
      hostRdReg p b r = hostRdReg p b' r) ∧
    (b.cfg.toNat % 2 = b'.cfg.toNat % 2 →
      hostRdReg p b 31 = hostRdReg p b' 31 ∧ hostRdReg p b 32 = hostRdReg p b' 32 ∧
      ∀ i : Index, hostRdTxt b i = hostRdTxt b' i)

/-- What the views read after reset (70_reset_and_hazards.md R311). -/
def Obligations.ViewsAfterReset : Prop :=
  let v (r : Index) : Word := hostRdReg Config.params Block.reset r
  v 16 = 0 ∧ v 17 = 0 ∧ v 18 = 0 ∧ v 19 = 0 ∧ v 20 = 0 ∧ v 21 = 0 ∧ v 22 = 0 ∧
  v 23 = 0x3FF0000000000000 ∧ v 24 = 0 ∧ v 25 = 0x41CDCD6500000000 ∧ v 26 = 0 ∧ v 27 = 0 ∧
  v 28 = 0 ∧ v 29 = 0 ∧ v 30 = 0 ∧ v 31 = 0 ∧ v 32 = 4 ∧ v 33 = 0 ∧ v 34 = 0 ∧ v 35 = 0 ∧
  v 36 = 0 ∧ (v 37).toInt = -22089888000000000 ∧ (v 38).toInt = -22089888000000000 ∧
  (v 39).toInt = -22089888000000000 ∧ (v 40).toInt = -22089888000000000 ∧
  (∀ j < 16, hostRdTxt Block.reset (BitVec.ofNat 32 j) = 0) ∧
  exec .dechdr State.reset =
    .next { State.reset with block := { Block.reset with status := 0x50001 } } ∧
  exec .valid State.reset =
    .next { State.reset with block := { Block.reset with status := 0x60001 } }

/-! ### The host's primitives -/

/-- `HostRdReg` (20_memory.md R81): CMD, the reserved indices and every index above 63 read 0, a view
reads its value, any other register its contents; and the read changes no state of the block. -/
def Obligations.RegisterReadReturnsTheRegister : Prop :=
  ∀ (s : State) (r : Index),
    let v := hostRdReg Config.params s.block r
    let b := s.block
    (r.toNat = 0 ∨ r.toNat = 14 ∨ r.toNat = 15 ∨ 41 ≤ r.toNat → v = 0) ∧
    (r.toNat = 1 → v = b.status) ∧ (r.toNat = 2 → v = b.cfg) ∧ (r.toNat = 3 → v = b.inLen) ∧
    (r.toNat = 4 → v = b.arg0) ∧ (r.toNat = 5 → v = b.arg1) ∧ (r.toNat = 6 → v = b.arg2) ∧
    (r.toNat = 7 → v = b.arg3) ∧ (r.toNat = 8 → v = b.res0) ∧ (r.toNat = 9 → v = b.res1) ∧
    (r.toNat = 10 → v = b.res2) ∧ (r.toNat = 11 → v = b.res3) ∧ (r.toNat = 12 → v = b.errA) ∧
    (r.toNat = 13 → v = b.errB) ∧
    (16 ≤ r.toNat → r.toNat ≤ 40 → ∃ view, Reg.ofIndex r.toNat = .view view ∧
      v = viewValue Config.params b.inBuf (decide (b.cfg.toNat % 2 = 1)) view) ∧
    (s.stmt = some (.rd r) → ∃ t, step s = .next t ∧ t.block = s.block)

/-- `HostWrReg` (20_memory.md R82): CMD runs the command, CFG stores bit 0, IN_LEN and ARG0 to ARG3
store the value, and a write anywhere else changes no state of the block. -/
def Obligations.RegisterWriteStoresOrIsIgnored : Prop :=
  ∀ (s : State) (r : Index) (v : Word), s.stmt = some (.wr r v) →
    (r.toNat = 0 → ∀ i, decode v = .ok i →
      step s = exec i { s with host := { s.host with pos := s.host.pos + 1 } }) ∧
    (r.toNat = 0 → ∀ e, decode v = .error e → step s = .next
      { block := { s.block with status := BitVec.ofNat 64 (8 + 65536 * (v.toNat % 256)) }
        host := { s.host with pos := s.host.pos + 1 } }) ∧
    (r.toNat ≠ 0 → step s = .next
      { block :=
          if r.toNat = 2 then { s.block with cfg := BitVec.ofNat 64 (v.toNat % 2) }
          else if r.toNat = 3 then { s.block with inLen := v }
          else if r.toNat = 4 then { s.block with arg0 := v }
          else if r.toNat = 5 then { s.block with arg1 := v }
          else if r.toNat = 6 then { s.block with arg2 := v }
          else if r.toNat = 7 then { s.block with arg3 := v }
          else s.block
        host := { s.host with pos := s.host.pos + 1 } })

/-- `HostWrIn` and `HostRdIn` (20_memory.md R83, R84): an octet written inside the capacity reads back
and every other reads as before; outside it nothing changes and a read gives 0; IN_LEN never changes. -/
def Obligations.InboundOctetWriteReadsBack : Prop :=
  ∀ (s : State) (i : Index) (v : Byte), s.block.inBuf.wf = true → s.stmt = some (.wrb i v) →
    ∃ t, step s = .next t ∧ t.block = { s.block with inBuf := t.block.inBuf } ∧
      (68 ≤ i.toNat → t.block = s.block) ∧
      ∀ j : Index, hostRdIn Config.params t.block j =
        if 68 ≤ j.toNat then 0
        else if j = i then v
        else s.block.inBuf.read j.toNat

/-- The octet reads (20_memory.md R83, R85, R86): the octet inside the buffer, 0 outside it; and the
read changes no state of the block (R93). -/
def Obligations.OctetReadsReturnTheOctet : Prop :=
  ∀ (s : State) (i : Index),
    hostRdIn Config.params s.block i = (if i.toNat < 68 then s.block.inBuf.read i.toNat else 0) ∧
    hostRdOut s.block i = (if i.toNat < 48 then s.block.outBuf.read i.toNat else 0) ∧
    hostRdTxt s.block i =
      (if i.toNat < 16 then
        (renderRefid s.block.inBuf (decide (s.block.cfg.toNat % 2 = 1))).getD i.toNat 0
      else 0) ∧
    (s.stmt = some (.rdbIn i) ∨ s.stmt = some (.rdbOut i) ∨ s.stmt = some (.rdbTxt i) →
      ∃ t, step s = .next t ∧ t.block = s.block)

/-- The host keeps the value each of its reads returns, an octet zero-extended, and moves past the
statement. That the host holds one such value is the model's choice (log 5), for `MOV` (30_encoding.md
R126). -/
def Obligations.HostKeepsTheValueRead : Prop :=
  ∀ (s : State) (i : Index),
    let after (v : Nat) : Prop := ∃ t, step s = .next t ∧ t.block = s.block ∧
      t.host.readVal.toNat = v ∧ t.host.pos = s.host.pos + 1 ∧ t.host.program = s.host.program
    (s.stmt = some (.rd i) → after (hostRdReg Config.params s.block i).toNat) ∧
    (s.stmt = some (.rdbIn i) → after (hostRdIn Config.params s.block i).toNat) ∧
    (s.stmt = some (.rdbOut i) → after (hostRdOut s.block i).toNat) ∧
    (s.stmt = some (.rdbTxt i) → after (hostRdTxt s.block i).toNat)

/-- The outbound buffer changes only at a BUILDREQ or a reset (10_state.md R42,
70_reset_and_hazards.md R323). -/
def Obligations.OutChangesOnlyAtBuildreqOrReset : Prop :=
  ∀ s t : State, step s = .next t → t.block.outBuf ≠ s.block.outBuf →
    s.stmt = some .reset ∨ s.WritesCmd 1

/-- Only a CMD write or a reset writes STATUS, a result register or an error register (10_state.md R33,
R37, R38); in particular a result stays until then (70_reset_and_hazards.md R321). -/
def Obligations.OnlyCommandsAndResetWriteResults : Prop :=
  ∀ s t : State, step s = .next t → s.stmt ≠ some .reset → (∀ w, ¬s.WritesCmd w) →
    t.block.status = s.block.status ∧ t.block.res0 = s.block.res0 ∧ t.block.res1 = s.block.res1 ∧
    t.block.res2 = s.block.res2 ∧ t.block.res3 = s.block.res3 ∧ t.block.errA = s.block.errA ∧
    t.block.errB = s.block.errB ∧ t.block.outBuf = s.block.outBuf

/-- `HostReset` (70_reset_and_hazards.md R310): every piece of state is 0, whatever it was. -/
def Obligations.HostResetClearsTheBlock : Prop :=
  ∀ s : State, s.stmt = some .reset →
    ∃ t, step s = .next t ∧ t.block = State.reset.block ∧
      t.block.status = 0 ∧ t.block.cfg = 0 ∧ t.block.inLen = 0 ∧ t.block.arg0 = 0 ∧
      t.block.arg1 = 0 ∧ t.block.arg2 = 0 ∧ t.block.arg3 = 0 ∧ t.block.res0 = 0 ∧
      t.block.res1 = 0 ∧ t.block.res2 = 0 ∧ t.block.res3 = 0 ∧ t.block.errA = 0 ∧
      t.block.errB = 0 ∧ (∀ i, t.block.inBuf.read i = 0) ∧ ∀ i, t.block.outBuf.read i = 0

/-- The host's branches (30_encoding.md R125, R127): JERR continues at its target exactly when
STATUS.ERR is not 0, JMP always; none changes the block. That a target is a position in the program is
the model's choice (log 5, DESIGN CHOICE); that HALT, R125's "end of the host program", leaves the whole
machine as it is, is the model's reading (log 7, DEDUCED). -/
def Obligations.HostBranchesLeaveTheBlock : Prop :=
  ∀ (s : State) (target : Nat),
    (s.stmt = some (.jerr target) → ∃ t, step s = .next t ∧ t.block = s.block ∧
      t.host.program = s.host.program ∧
      t.host.pos = if s.block.status.toNat % 256 ≠ 0 then target else s.host.pos + 1) ∧
    (s.stmt = some (.jmp target) →
      step s = .next { s with host := { s.host with pos := target } }) ∧
    (s.stmt = some .halt → step s = .next s)

/-- `MOV ARGk, reg` (30_encoding.md R126): the two steps of its expansion copy the register's value
into ARGk; the other registers and the buffers keep theirs. That the host holds the value read between
the two is the model's choice (log 5, DESIGN CHOICE). -/
def Obligations.MovCopiesARegisterIntoAnArgument : Prop :=
  ∀ (s s' t : State) (k : Fin 4) (reg : Index),
    s.stmt = some (.rd reg) →
    s.host.program[s.host.pos + 1]? = some (.wrRead (Script.argIndex k)) →
    step s = .next s' → step s' = .next t →
    let v := hostRdReg Config.params s.block reg
    t.block =
      if k = 0 then { s.block with arg0 := v }
      else if k = 1 then { s.block with arg1 := v }
      else if k = 2 then { s.block with arg2 := v }
      else { s.block with arg3 := v }

/-! ### The whole machine -/

/-- Every step answers a next state, and past the end of the host's program nothing changes. Both are
the model's readings: no fault, trap or refusal from 20_memory.md R96 and 60_exceptions.md R289 (log 6,
DEDUCED); the block never acts on its own by 20_memory.md R87, and that the host too stays where it is
past its program is the model's (log 7, DEDUCED). -/
def Obligations.EveryStepHasANextState : Prop :=
  (∀ s : State, ∃ t, step s = .next t) ∧ ∀ s : State, s.stmt = none → step s = .next s

/-- The machine's parameters are legal and give the constants the spec computes for them
(00_scope.md R10 to R12, 41_offset_calculator.md R237). That the machine fixes them at their defaults is
the model's choice (log 1, DESIGN CHOICE). -/
def Obligations.DefaultParametersAreLegal : Prop :=
  Config.params.legal = true ∧ ticksPerMs Config.params = 10000 ∧
  ntpEpoch Config.params = -22089888000000000 ∧
  disparityLimit Config.params = 10722240000000000 ∧ disparityLimitS = 1072224000

/-- The reset state meets the machine's invariant. Its canonical buffers are the model's form of the
reset contents (log 3, DEDUCED). -/
def Obligations.ResetMeetsTheInvariant : Prop := State.reset.Inv

/-- Every step keeps the machine's invariant: both buffers canonical and inside their capacity, CFG's
reserved bits 0, STATUS one that a command can leave. The canonical buffers
are the model's form of them (log 3, DEDUCED). -/
def Obligations.EveryStepKeepsTheInvariant : Prop :=
  ∀ s t : State, s.Inv → step s = .next t → t.Inv
end

