-- ==== Sys2Proof/Laws/Binary64.lean ====
section
/-! SUPPORT. The small facts of the binary64 reading: a positive denominator, and the value as the
quotient of numerator and denominator. -/

namespace Sys2Proof.Machine

theorem F64.den_pos (x : F64) : 0 < F64.den x := by
  unfold F64.den
  split
  · exact Nat.one_pos
  · exact Nat.two_pow_pos _

theorem F64.scale_pos (x : F64) : 1 ≤ F64.scale x := Nat.le_max_left ..

theorem F64.exponentField_lt (x : F64) : F64.exponentField x < 2048 := BitVec.isLt _

theorem F64.fractionField_lt (x : F64) : F64.fractionField x < 2 ^ 52 := BitVec.isLt _

theorem F64.significand_lt (x : F64) : F64.significand x < 2 ^ 53 := by
  have := F64.fractionField_lt x
  unfold F64.significand
  split <;> omega

/-- The rational a pattern stands for is its numerator over its denominator. -/
theorem F64.toRat_eq (x : F64) : F64.toRat x = (F64.num x : ℚ) / F64.den x := by
  have h2 : (2 : ℚ) ≠ 0 := two_ne_zero
  unfold F64.toRat F64.num F64.den
  by_cases hs : F64.significand x = 0
  · rw [if_pos hs, hs, Nat.zero_mul, Nat.cast_zero, Nat.cast_zero, mul_zero, mul_zero, zero_mul,
      Int.cast_zero, zero_div]
  rw [if_neg hs]
  rcases le_total 1075 (F64.scale x) with h | h
  · obtain ⟨k, hk⟩ := Nat.exists_eq_add_of_le h
    have e1 : F64.scale x - 1075 = k := by omega
    have e2 : 1075 - F64.scale x = 0 := by omega
    have e3 : ((F64.scale x : ℤ) - 1075) = (k : ℤ) := by omega
    rw [e1, e2, e3, zpow_natCast]
    split <;> push_cast <;> ring
  · obtain ⟨k, hk⟩ := Nat.exists_eq_add_of_le h
    have e1 : F64.scale x - 1075 = 0 := by omega
    have e2 : 1075 - F64.scale x = k := by omega
    have e3 : ((F64.scale x : ℤ) - 1075) = -(k : ℤ) := by omega
    rw [e1, e2, e3, zpow_neg, zpow_natCast]
    split <;> push_cast <;> field_simp

@[simp] theorem rn_zero (d : Nat) : rn 0 d = 0#64 := rfl

end Sys2Proof.Machine
end

