-- ==== Sys2Proof/Laws/Memory.lean ====
section
/-! SUPPORT. The buffers: reads after writes, and the canonical form, which every memory operation keeps
and in which equal reads mean equal data. -/

namespace Sys2Proof.Machine

@[simp] theorem Memory.read_nil (a : Nat) : Memory.read [] a = 0 := rfl

theorem Memory.read_cons (k : Nat) (v : Byte) (m : Memory) (a : Nat) :
    Memory.read ((k, v) :: m) a = if k = a then v else Memory.read m a := rfl

theorem Memory.wfFrom_cons (lo k : Nat) (v : Byte) (m : Memory) :
    Memory.wfFrom lo ((k, v) :: m) = true ↔ lo ≤ k ∧ v ≠ 0 ∧ Memory.wfFrom (k + 1) m = true := by
  simp [Memory.wfFrom, and_assoc]

/-- A canonical buffer from `lo` upward is one from any smaller bound. -/
theorem Memory.wfFrom_mono {lo lo' : Nat} (h : lo' ≤ lo) :
    ∀ {m : Memory}, Memory.wfFrom lo m = true → Memory.wfFrom lo' m = true
  | [], _ => rfl
  | (k, v) :: m, hm => by
    rw [Memory.wfFrom_cons] at hm ⊢
    exact ⟨h.trans hm.1, hm.2⟩

/-- Nothing is listed below the bound of a canonical buffer. -/
theorem Memory.read_below {a : Nat} :
    ∀ {lo : Nat} {m : Memory}, Memory.wfFrom lo m = true → a < lo → Memory.read m a = 0
  | _, [], _, _ => rfl
  | lo, (k, v) :: m, hm, ha => by
    rw [Memory.wfFrom_cons] at hm
    rw [Memory.read_cons, if_neg (by omega)]
    exact Memory.read_below hm.2.2 (by omega)

/-- What a read returns after a write, in a canonical buffer. -/
theorem Memory.read_write_from {a : Nat} {v : Byte} {i : Nat} :
    ∀ {lo : Nat} {m : Memory}, Memory.wfFrom lo m = true →
      Memory.read (Memory.write m a v) i = if i = a then v else Memory.read m i
  | _, [], _ => by
    unfold Memory.write
    by_cases hi : i = a
    · subst hi; split <;> rename_i hv <;> simp [Memory.read_cons, hv]
    · rw [if_neg hi]; split <;> simp [Memory.read_cons, Ne.symm hi]
  | lo, (k, b) :: m, hm => by
    rw [Memory.wfFrom_cons] at hm
    have below : i < k + 1 → Memory.read m i = 0 := Memory.read_below hm.2.2
    unfold Memory.write
    split
    · split <;> rename_i hak hv
      · by_cases hi : i = a
        · subst hi; simp [Memory.read_cons, hv, below (by omega), Nat.ne_of_gt hak]
        · simp [hi]
      · by_cases hi : i = a
        · subst hi; simp [Memory.read_cons]
        · simp [Memory.read_cons, hi, Ne.symm hi]
    · split <;> rename_i hak hka
      · subst hka
        split <;> rename_i hv
        · by_cases hi : i = a
          · subst hi; simp [hv, below (by omega)]
          · simp [Memory.read_cons, hi, Ne.symm hi]
        · by_cases hi : i = a
          · subst hi; simp [Memory.read_cons]
          · simp [Memory.read_cons, hi, Ne.symm hi]
      · rw [Memory.read_cons, Memory.read_cons, Memory.read_write_from hm.2.2]
        by_cases hi : i = a
        · subst hi; simp [Ne.symm hka]
        · simp [hi]

/-- What a read returns after a write. -/
theorem Memory.read_write {m : Memory} (hm : m.wf = true) (a : Nat) (v : Byte) (i : Nat) :
    (m.write a v).read i = if i = a then v else m.read i := Memory.read_write_from hm

theorem Memory.wfFrom_write {a : Nat} {v : Byte} :
    ∀ {lo : Nat} {m : Memory}, Memory.wfFrom lo m = true → lo ≤ a →
      Memory.wfFrom lo (Memory.write m a v) = true
  | lo, [], _, ha => by
    unfold Memory.write
    split <;> rename_i hv
    · rfl
    · exact (Memory.wfFrom_cons ..).2 ⟨ha, hv, rfl⟩
  | lo, (k, b) :: m, hm, ha => by
    rw [Memory.wfFrom_cons] at hm
    have tail : Memory.wfFrom lo m = true := Memory.wfFrom_mono (by omega) hm.2.2
    unfold Memory.write
    split
    · split <;> rename_i hak hv
      · exact (Memory.wfFrom_cons ..).2 hm
      · exact (Memory.wfFrom_cons ..).2 ⟨ha, hv, (Memory.wfFrom_cons ..).2 ⟨hak, hm.2⟩⟩
    · split <;> rename_i hak hka
      · split <;> rename_i hv
        · exact tail
        · exact (Memory.wfFrom_cons ..).2 ⟨ha, hv, hka ▸ hm.2.2⟩
      · exact (Memory.wfFrom_cons ..).2 ⟨hm.1, hm.2.1, Memory.wfFrom_write hm.2.2 (by omega)⟩

/-- A write keeps the canonical form. -/
theorem Memory.wf_write {m : Memory} (hm : m.wf = true) (a : Nat) (v : Byte) :
    (m.write a v).wf = true := Memory.wfFrom_write hm (Nat.zero_le a)

theorem Memory.within_cons (cap k : Nat) (v : Byte) (m : Memory) :
    Memory.within cap ((k, v) :: m) = true ↔ k < cap ∧ Memory.within cap m = true := by
  simp [Memory.within]

/-- A write inside the capacity keeps the buffer inside it. -/
theorem Memory.within_write {cap a : Nat} {v : Byte} (ha : a < cap) :
    ∀ {m : Memory}, m.within cap = true → (m.write a v).within cap = true
  | [], _ => by
    unfold Memory.write
    split
    · rfl
    · exact (Memory.within_cons ..).2 ⟨ha, rfl⟩
  | (k, b) :: m, hm => by
    rw [Memory.within_cons] at hm
    unfold Memory.write
    split
    · split
      · exact (Memory.within_cons ..).2 hm
      · exact (Memory.within_cons ..).2 ⟨ha, (Memory.within_cons ..).2 hm⟩
    · split
      · split
        · exact hm.2
        · exact (Memory.within_cons ..).2 ⟨ha, hm.2⟩
      · exact (Memory.within_cons ..).2 ⟨hm.1, Memory.within_write ha hm.2⟩

/-- Nothing is listed at or above the capacity. -/
theorem Memory.read_above {cap a : Nat} (ha : cap ≤ a) :
    ∀ {m : Memory}, m.within cap = true → m.read a = 0
  | [], _ => rfl
  | (k, b) :: m, hm => by
    rw [Memory.within_cons] at hm
    rw [Memory.read_cons, if_neg (by omega)]
    exact Memory.read_above ha hm.2

/-- Writing a list of octets keeps the canonical form. -/
theorem Memory.wf_writeList :
    ∀ {vs : List Byte} {m : Memory} {a : Nat}, m.wf = true → (m.writeList a vs).wf = true
  | [], _, _, hm => hm
  | v :: vs, _, a, hm => Memory.wf_writeList (vs := vs) (Memory.wf_write hm a v)

/-- Writing a list of octets inside the capacity keeps the buffer inside it. -/
theorem Memory.within_writeList {cap : Nat} :
    ∀ {vs : List Byte} {m : Memory} {a : Nat}, m.within cap = true → a + vs.length ≤ cap →
      (m.writeList a vs).within cap = true
  | [], _, _, hm, _ => hm
  | v :: vs, _, a, hm, h => by
    have hlen : a + (vs.length + 1) ≤ cap := h
    have ha : a < cap := by omega
    exact Memory.within_writeList (vs := vs) (Memory.within_write ha hm) (by omega)

/-- What a read returns after a list of octets is written. -/
theorem Memory.read_writeList :
    ∀ {vs : List Byte} {m : Memory} {a : Nat} (_ : m.wf = true) (i : Nat),
      (m.writeList a vs).read i = if a ≤ i ∧ i < a + vs.length then vs.getD (i - a) 0 else m.read i
  | [], m, a, _, i => by simp [Memory.writeList]
  | v :: vs, m, a, hm, i => by
    rw [Memory.writeList, Memory.read_writeList (Memory.wf_write hm a v), Memory.read_write hm]
    rcases lt_trichotomy i a with h | h | h
    · rw [if_neg (by omega), if_neg (by omega), if_neg (by simp; omega)]
    · subst h; simp
    · obtain ⟨j, rfl⟩ : ∃ j, i = a + 1 + j := ⟨i - (a + 1), by omega⟩
      have e1 : a + 1 + j - (a + 1) = j := by omega
      have e2 : a + 1 + j - a = j + 1 := by omega
      simp only [List.length_cons, e1, e2, List.getD_cons_succ]
      by_cases hj : j < vs.length
      · rw [if_pos (by omega), if_pos (by omega)]
      · rw [if_neg (by omega), if_neg (by omega), if_neg (by omega)]

theorem Memory.ext_from :
    ∀ {lo : Nat} {m n : Memory}, Memory.wfFrom lo m = true → Memory.wfFrom lo n = true →
      (∀ i, Memory.read m i = Memory.read n i) → m = n
  | _, [], [], _, _, _ => rfl
  | _, [], (k, v) :: n, _, hn, h => by
    rw [Memory.wfFrom_cons] at hn
    have := h k
    simp [Memory.read_cons] at this
    exact absurd this.symm hn.2.1
  | _, (k, v) :: m, [], hm, _, h => by
    rw [Memory.wfFrom_cons] at hm
    have := h k
    simp [Memory.read_cons] at this
    exact absurd this hm.2.1
  | lo, (k, v) :: m, (l, w) :: n, hm, hn, h => by
    rw [Memory.wfFrom_cons] at hm hn
    have hkl : k = l := by
      rcases lt_trichotomy k l with hlt | heq | hgt
      · have := h k
        rw [Memory.read_cons, Memory.read_cons, if_pos rfl, if_neg (by omega),
          Memory.read_below hn.2.2 (by omega)] at this
        exact absurd this hm.2.1
      · exact heq
      · have := h l
        rw [Memory.read_cons, Memory.read_cons, if_pos rfl, if_neg (by omega),
          Memory.read_below hm.2.2 (by omega)] at this
        exact absurd this.symm hn.2.1
    subst hkl
    have hvw : v = w := by simpa [Memory.read_cons] using h k
    have tails : m = n := Memory.ext_from hm.2.2 hn.2.2 fun i => by
      by_cases hi : k = i
      · subst hi
        rw [Memory.read_below hm.2.2 (by omega), Memory.read_below hn.2.2 (by omega)]
      · simpa [Memory.read_cons, hi] using h i
    rw [hvw, tails]

/-- Canonical buffers that read alike everywhere are the same data. -/
theorem Memory.ext {m n : Memory} (hm : m.wf = true) (hn : n.wf = true)
    (h : ∀ i, m.read i = n.read i) : m = n := Memory.ext_from hm hn h

end Sys2Proof.Machine
end

