-- ==== Sys2Proof/Laws/State.lean ====
section
/-! SUPPORT. One lemma per field per update of the state, each by rfl, so that no proof unfolds a record
update. -/

namespace Sys2Proof.Machine

section
variable (b : Block) (v w : Word) (m : Memory)

@[simp] theorem Block.setStatus_status : (b.setStatus v).status = v := rfl
@[simp] theorem Block.setStatus_cfg : (b.setStatus v).cfg = b.cfg := rfl
@[simp] theorem Block.setStatus_inLen : (b.setStatus v).inLen = b.inLen := rfl
@[simp] theorem Block.setStatus_arg0 : (b.setStatus v).arg0 = b.arg0 := rfl
@[simp] theorem Block.setStatus_arg1 : (b.setStatus v).arg1 = b.arg1 := rfl
@[simp] theorem Block.setStatus_arg2 : (b.setStatus v).arg2 = b.arg2 := rfl
@[simp] theorem Block.setStatus_arg3 : (b.setStatus v).arg3 = b.arg3 := rfl
@[simp] theorem Block.setStatus_res0 : (b.setStatus v).res0 = b.res0 := rfl
@[simp] theorem Block.setStatus_res1 : (b.setStatus v).res1 = b.res1 := rfl
@[simp] theorem Block.setStatus_res2 : (b.setStatus v).res2 = b.res2 := rfl
@[simp] theorem Block.setStatus_res3 : (b.setStatus v).res3 = b.res3 := rfl
@[simp] theorem Block.setStatus_errA : (b.setStatus v).errA = b.errA := rfl
@[simp] theorem Block.setStatus_errB : (b.setStatus v).errB = b.errB := rfl
@[simp] theorem Block.setStatus_inBuf : (b.setStatus v).inBuf = b.inBuf := rfl
@[simp] theorem Block.setStatus_outBuf : (b.setStatus v).outBuf = b.outBuf := rfl

@[simp] theorem Block.setInLen_status : (b.setInLen v).status = b.status := rfl
@[simp] theorem Block.setInLen_cfg : (b.setInLen v).cfg = b.cfg := rfl
@[simp] theorem Block.setInLen_inLen : (b.setInLen v).inLen = v := rfl
@[simp] theorem Block.setInLen_arg0 : (b.setInLen v).arg0 = b.arg0 := rfl
@[simp] theorem Block.setInLen_arg1 : (b.setInLen v).arg1 = b.arg1 := rfl
@[simp] theorem Block.setInLen_arg2 : (b.setInLen v).arg2 = b.arg2 := rfl
@[simp] theorem Block.setInLen_arg3 : (b.setInLen v).arg3 = b.arg3 := rfl
@[simp] theorem Block.setInLen_res0 : (b.setInLen v).res0 = b.res0 := rfl
@[simp] theorem Block.setInLen_res1 : (b.setInLen v).res1 = b.res1 := rfl
@[simp] theorem Block.setInLen_res2 : (b.setInLen v).res2 = b.res2 := rfl
@[simp] theorem Block.setInLen_res3 : (b.setInLen v).res3 = b.res3 := rfl
@[simp] theorem Block.setInLen_errA : (b.setInLen v).errA = b.errA := rfl
@[simp] theorem Block.setInLen_errB : (b.setInLen v).errB = b.errB := rfl
@[simp] theorem Block.setInLen_inBuf : (b.setInLen v).inBuf = b.inBuf := rfl
@[simp] theorem Block.setInLen_outBuf : (b.setInLen v).outBuf = b.outBuf := rfl

@[simp] theorem Block.setArg0_status : (b.setArg0 v).status = b.status := rfl
@[simp] theorem Block.setArg0_cfg : (b.setArg0 v).cfg = b.cfg := rfl
@[simp] theorem Block.setArg0_inLen : (b.setArg0 v).inLen = b.inLen := rfl
@[simp] theorem Block.setArg0_arg0 : (b.setArg0 v).arg0 = v := rfl
@[simp] theorem Block.setArg0_arg1 : (b.setArg0 v).arg1 = b.arg1 := rfl
@[simp] theorem Block.setArg0_arg2 : (b.setArg0 v).arg2 = b.arg2 := rfl
@[simp] theorem Block.setArg0_arg3 : (b.setArg0 v).arg3 = b.arg3 := rfl
@[simp] theorem Block.setArg0_res0 : (b.setArg0 v).res0 = b.res0 := rfl
@[simp] theorem Block.setArg0_res1 : (b.setArg0 v).res1 = b.res1 := rfl
@[simp] theorem Block.setArg0_res2 : (b.setArg0 v).res2 = b.res2 := rfl
@[simp] theorem Block.setArg0_res3 : (b.setArg0 v).res3 = b.res3 := rfl
@[simp] theorem Block.setArg0_errA : (b.setArg0 v).errA = b.errA := rfl
@[simp] theorem Block.setArg0_errB : (b.setArg0 v).errB = b.errB := rfl
@[simp] theorem Block.setArg0_inBuf : (b.setArg0 v).inBuf = b.inBuf := rfl
@[simp] theorem Block.setArg0_outBuf : (b.setArg0 v).outBuf = b.outBuf := rfl

@[simp] theorem Block.setArg1_status : (b.setArg1 v).status = b.status := rfl
@[simp] theorem Block.setArg1_cfg : (b.setArg1 v).cfg = b.cfg := rfl
@[simp] theorem Block.setArg1_inLen : (b.setArg1 v).inLen = b.inLen := rfl
@[simp] theorem Block.setArg1_arg0 : (b.setArg1 v).arg0 = b.arg0 := rfl
@[simp] theorem Block.setArg1_arg1 : (b.setArg1 v).arg1 = v := rfl
@[simp] theorem Block.setArg1_arg2 : (b.setArg1 v).arg2 = b.arg2 := rfl
@[simp] theorem Block.setArg1_arg3 : (b.setArg1 v).arg3 = b.arg3 := rfl
@[simp] theorem Block.setArg1_res0 : (b.setArg1 v).res0 = b.res0 := rfl
@[simp] theorem Block.setArg1_res1 : (b.setArg1 v).res1 = b.res1 := rfl
@[simp] theorem Block.setArg1_res2 : (b.setArg1 v).res2 = b.res2 := rfl
@[simp] theorem Block.setArg1_res3 : (b.setArg1 v).res3 = b.res3 := rfl
@[simp] theorem Block.setArg1_errA : (b.setArg1 v).errA = b.errA := rfl
@[simp] theorem Block.setArg1_errB : (b.setArg1 v).errB = b.errB := rfl
@[simp] theorem Block.setArg1_inBuf : (b.setArg1 v).inBuf = b.inBuf := rfl
@[simp] theorem Block.setArg1_outBuf : (b.setArg1 v).outBuf = b.outBuf := rfl

@[simp] theorem Block.setArg2_status : (b.setArg2 v).status = b.status := rfl
@[simp] theorem Block.setArg2_cfg : (b.setArg2 v).cfg = b.cfg := rfl
@[simp] theorem Block.setArg2_inLen : (b.setArg2 v).inLen = b.inLen := rfl
@[simp] theorem Block.setArg2_arg0 : (b.setArg2 v).arg0 = b.arg0 := rfl
@[simp] theorem Block.setArg2_arg1 : (b.setArg2 v).arg1 = b.arg1 := rfl
@[simp] theorem Block.setArg2_arg2 : (b.setArg2 v).arg2 = v := rfl
@[simp] theorem Block.setArg2_arg3 : (b.setArg2 v).arg3 = b.arg3 := rfl
@[simp] theorem Block.setArg2_res0 : (b.setArg2 v).res0 = b.res0 := rfl
@[simp] theorem Block.setArg2_res1 : (b.setArg2 v).res1 = b.res1 := rfl
@[simp] theorem Block.setArg2_res2 : (b.setArg2 v).res2 = b.res2 := rfl
@[simp] theorem Block.setArg2_res3 : (b.setArg2 v).res3 = b.res3 := rfl
@[simp] theorem Block.setArg2_errA : (b.setArg2 v).errA = b.errA := rfl
@[simp] theorem Block.setArg2_errB : (b.setArg2 v).errB = b.errB := rfl
@[simp] theorem Block.setArg2_inBuf : (b.setArg2 v).inBuf = b.inBuf := rfl
@[simp] theorem Block.setArg2_outBuf : (b.setArg2 v).outBuf = b.outBuf := rfl

@[simp] theorem Block.setArg3_status : (b.setArg3 v).status = b.status := rfl
@[simp] theorem Block.setArg3_cfg : (b.setArg3 v).cfg = b.cfg := rfl
@[simp] theorem Block.setArg3_inLen : (b.setArg3 v).inLen = b.inLen := rfl
@[simp] theorem Block.setArg3_arg0 : (b.setArg3 v).arg0 = b.arg0 := rfl
@[simp] theorem Block.setArg3_arg1 : (b.setArg3 v).arg1 = b.arg1 := rfl
@[simp] theorem Block.setArg3_arg2 : (b.setArg3 v).arg2 = b.arg2 := rfl
@[simp] theorem Block.setArg3_arg3 : (b.setArg3 v).arg3 = v := rfl
@[simp] theorem Block.setArg3_res0 : (b.setArg3 v).res0 = b.res0 := rfl
@[simp] theorem Block.setArg3_res1 : (b.setArg3 v).res1 = b.res1 := rfl
@[simp] theorem Block.setArg3_res2 : (b.setArg3 v).res2 = b.res2 := rfl
@[simp] theorem Block.setArg3_res3 : (b.setArg3 v).res3 = b.res3 := rfl
@[simp] theorem Block.setArg3_errA : (b.setArg3 v).errA = b.errA := rfl
@[simp] theorem Block.setArg3_errB : (b.setArg3 v).errB = b.errB := rfl
@[simp] theorem Block.setArg3_inBuf : (b.setArg3 v).inBuf = b.inBuf := rfl
@[simp] theorem Block.setArg3_outBuf : (b.setArg3 v).outBuf = b.outBuf := rfl

@[simp] theorem Block.setRes0_status : (b.setRes0 v).status = b.status := rfl
@[simp] theorem Block.setRes0_cfg : (b.setRes0 v).cfg = b.cfg := rfl
@[simp] theorem Block.setRes0_inLen : (b.setRes0 v).inLen = b.inLen := rfl
@[simp] theorem Block.setRes0_arg0 : (b.setRes0 v).arg0 = b.arg0 := rfl
@[simp] theorem Block.setRes0_arg1 : (b.setRes0 v).arg1 = b.arg1 := rfl
@[simp] theorem Block.setRes0_arg2 : (b.setRes0 v).arg2 = b.arg2 := rfl
@[simp] theorem Block.setRes0_arg3 : (b.setRes0 v).arg3 = b.arg3 := rfl
@[simp] theorem Block.setRes0_res0 : (b.setRes0 v).res0 = v := rfl
@[simp] theorem Block.setRes0_res1 : (b.setRes0 v).res1 = b.res1 := rfl
@[simp] theorem Block.setRes0_res2 : (b.setRes0 v).res2 = b.res2 := rfl
@[simp] theorem Block.setRes0_res3 : (b.setRes0 v).res3 = b.res3 := rfl
@[simp] theorem Block.setRes0_errA : (b.setRes0 v).errA = b.errA := rfl
@[simp] theorem Block.setRes0_errB : (b.setRes0 v).errB = b.errB := rfl
@[simp] theorem Block.setRes0_inBuf : (b.setRes0 v).inBuf = b.inBuf := rfl
@[simp] theorem Block.setRes0_outBuf : (b.setRes0 v).outBuf = b.outBuf := rfl

@[simp] theorem Block.setRes1_status : (b.setRes1 v).status = b.status := rfl
@[simp] theorem Block.setRes1_cfg : (b.setRes1 v).cfg = b.cfg := rfl
@[simp] theorem Block.setRes1_inLen : (b.setRes1 v).inLen = b.inLen := rfl
@[simp] theorem Block.setRes1_arg0 : (b.setRes1 v).arg0 = b.arg0 := rfl
@[simp] theorem Block.setRes1_arg1 : (b.setRes1 v).arg1 = b.arg1 := rfl
@[simp] theorem Block.setRes1_arg2 : (b.setRes1 v).arg2 = b.arg2 := rfl
@[simp] theorem Block.setRes1_arg3 : (b.setRes1 v).arg3 = b.arg3 := rfl
@[simp] theorem Block.setRes1_res0 : (b.setRes1 v).res0 = b.res0 := rfl
@[simp] theorem Block.setRes1_res1 : (b.setRes1 v).res1 = v := rfl
@[simp] theorem Block.setRes1_res2 : (b.setRes1 v).res2 = b.res2 := rfl
@[simp] theorem Block.setRes1_res3 : (b.setRes1 v).res3 = b.res3 := rfl
@[simp] theorem Block.setRes1_errA : (b.setRes1 v).errA = b.errA := rfl
@[simp] theorem Block.setRes1_errB : (b.setRes1 v).errB = b.errB := rfl
@[simp] theorem Block.setRes1_inBuf : (b.setRes1 v).inBuf = b.inBuf := rfl
@[simp] theorem Block.setRes1_outBuf : (b.setRes1 v).outBuf = b.outBuf := rfl

@[simp] theorem Block.setRes2_status : (b.setRes2 v).status = b.status := rfl
@[simp] theorem Block.setRes2_cfg : (b.setRes2 v).cfg = b.cfg := rfl
@[simp] theorem Block.setRes2_inLen : (b.setRes2 v).inLen = b.inLen := rfl
@[simp] theorem Block.setRes2_arg0 : (b.setRes2 v).arg0 = b.arg0 := rfl
@[simp] theorem Block.setRes2_arg1 : (b.setRes2 v).arg1 = b.arg1 := rfl
@[simp] theorem Block.setRes2_arg2 : (b.setRes2 v).arg2 = b.arg2 := rfl
@[simp] theorem Block.setRes2_arg3 : (b.setRes2 v).arg3 = b.arg3 := rfl
@[simp] theorem Block.setRes2_res0 : (b.setRes2 v).res0 = b.res0 := rfl
@[simp] theorem Block.setRes2_res1 : (b.setRes2 v).res1 = b.res1 := rfl
@[simp] theorem Block.setRes2_res2 : (b.setRes2 v).res2 = v := rfl
@[simp] theorem Block.setRes2_res3 : (b.setRes2 v).res3 = b.res3 := rfl
@[simp] theorem Block.setRes2_errA : (b.setRes2 v).errA = b.errA := rfl
@[simp] theorem Block.setRes2_errB : (b.setRes2 v).errB = b.errB := rfl
@[simp] theorem Block.setRes2_inBuf : (b.setRes2 v).inBuf = b.inBuf := rfl
@[simp] theorem Block.setRes2_outBuf : (b.setRes2 v).outBuf = b.outBuf := rfl

@[simp] theorem Block.setRes3_status : (b.setRes3 v).status = b.status := rfl
@[simp] theorem Block.setRes3_cfg : (b.setRes3 v).cfg = b.cfg := rfl
@[simp] theorem Block.setRes3_inLen : (b.setRes3 v).inLen = b.inLen := rfl
@[simp] theorem Block.setRes3_arg0 : (b.setRes3 v).arg0 = b.arg0 := rfl
@[simp] theorem Block.setRes3_arg1 : (b.setRes3 v).arg1 = b.arg1 := rfl
@[simp] theorem Block.setRes3_arg2 : (b.setRes3 v).arg2 = b.arg2 := rfl
@[simp] theorem Block.setRes3_arg3 : (b.setRes3 v).arg3 = b.arg3 := rfl
@[simp] theorem Block.setRes3_res0 : (b.setRes3 v).res0 = b.res0 := rfl
@[simp] theorem Block.setRes3_res1 : (b.setRes3 v).res1 = b.res1 := rfl
@[simp] theorem Block.setRes3_res2 : (b.setRes3 v).res2 = b.res2 := rfl
@[simp] theorem Block.setRes3_res3 : (b.setRes3 v).res3 = v := rfl
@[simp] theorem Block.setRes3_errA : (b.setRes3 v).errA = b.errA := rfl
@[simp] theorem Block.setRes3_errB : (b.setRes3 v).errB = b.errB := rfl
@[simp] theorem Block.setRes3_inBuf : (b.setRes3 v).inBuf = b.inBuf := rfl
@[simp] theorem Block.setRes3_outBuf : (b.setRes3 v).outBuf = b.outBuf := rfl

@[simp] theorem Block.setIn_status : (b.setIn m).status = b.status := rfl
@[simp] theorem Block.setIn_cfg : (b.setIn m).cfg = b.cfg := rfl
@[simp] theorem Block.setIn_inLen : (b.setIn m).inLen = b.inLen := rfl
@[simp] theorem Block.setIn_arg0 : (b.setIn m).arg0 = b.arg0 := rfl
@[simp] theorem Block.setIn_arg1 : (b.setIn m).arg1 = b.arg1 := rfl
@[simp] theorem Block.setIn_arg2 : (b.setIn m).arg2 = b.arg2 := rfl
@[simp] theorem Block.setIn_arg3 : (b.setIn m).arg3 = b.arg3 := rfl
@[simp] theorem Block.setIn_res0 : (b.setIn m).res0 = b.res0 := rfl
@[simp] theorem Block.setIn_res1 : (b.setIn m).res1 = b.res1 := rfl
@[simp] theorem Block.setIn_res2 : (b.setIn m).res2 = b.res2 := rfl
@[simp] theorem Block.setIn_res3 : (b.setIn m).res3 = b.res3 := rfl
@[simp] theorem Block.setIn_errA : (b.setIn m).errA = b.errA := rfl
@[simp] theorem Block.setIn_errB : (b.setIn m).errB = b.errB := rfl
@[simp] theorem Block.setIn_inBuf : (b.setIn m).inBuf = m := rfl
@[simp] theorem Block.setIn_outBuf : (b.setIn m).outBuf = b.outBuf := rfl

@[simp] theorem Block.setOut_status : (b.setOut m).status = b.status := rfl
@[simp] theorem Block.setOut_cfg : (b.setOut m).cfg = b.cfg := rfl
@[simp] theorem Block.setOut_inLen : (b.setOut m).inLen = b.inLen := rfl
@[simp] theorem Block.setOut_arg0 : (b.setOut m).arg0 = b.arg0 := rfl
@[simp] theorem Block.setOut_arg1 : (b.setOut m).arg1 = b.arg1 := rfl
@[simp] theorem Block.setOut_arg2 : (b.setOut m).arg2 = b.arg2 := rfl
@[simp] theorem Block.setOut_arg3 : (b.setOut m).arg3 = b.arg3 := rfl
@[simp] theorem Block.setOut_res0 : (b.setOut m).res0 = b.res0 := rfl
@[simp] theorem Block.setOut_res1 : (b.setOut m).res1 = b.res1 := rfl
@[simp] theorem Block.setOut_res2 : (b.setOut m).res2 = b.res2 := rfl
@[simp] theorem Block.setOut_res3 : (b.setOut m).res3 = b.res3 := rfl
@[simp] theorem Block.setOut_errA : (b.setOut m).errA = b.errA := rfl
@[simp] theorem Block.setOut_errB : (b.setOut m).errB = b.errB := rfl
@[simp] theorem Block.setOut_inBuf : (b.setOut m).inBuf = b.inBuf := rfl
@[simp] theorem Block.setOut_outBuf : (b.setOut m).outBuf = m := rfl

@[simp] theorem Block.setCfg_status : (b.setCfg v).status = b.status := rfl
@[simp] theorem Block.setCfg_cfg : (b.setCfg v).cfg = v &&& 1 := rfl
@[simp] theorem Block.setCfg_inLen : (b.setCfg v).inLen = b.inLen := rfl
@[simp] theorem Block.setCfg_arg0 : (b.setCfg v).arg0 = b.arg0 := rfl
@[simp] theorem Block.setCfg_arg1 : (b.setCfg v).arg1 = b.arg1 := rfl
@[simp] theorem Block.setCfg_arg2 : (b.setCfg v).arg2 = b.arg2 := rfl
@[simp] theorem Block.setCfg_arg3 : (b.setCfg v).arg3 = b.arg3 := rfl
@[simp] theorem Block.setCfg_res0 : (b.setCfg v).res0 = b.res0 := rfl
@[simp] theorem Block.setCfg_res1 : (b.setCfg v).res1 = b.res1 := rfl
@[simp] theorem Block.setCfg_res2 : (b.setCfg v).res2 = b.res2 := rfl
@[simp] theorem Block.setCfg_res3 : (b.setCfg v).res3 = b.res3 := rfl
@[simp] theorem Block.setCfg_errA : (b.setCfg v).errA = b.errA := rfl
@[simp] theorem Block.setCfg_errB : (b.setCfg v).errB = b.errB := rfl
@[simp] theorem Block.setCfg_inBuf : (b.setCfg v).inBuf = b.inBuf := rfl
@[simp] theorem Block.setCfg_outBuf : (b.setCfg v).outBuf = b.outBuf := rfl

@[simp] theorem Block.setErrInfo_status : (b.setErrInfo v w).status = b.status := rfl
@[simp] theorem Block.setErrInfo_cfg : (b.setErrInfo v w).cfg = b.cfg := rfl
@[simp] theorem Block.setErrInfo_inLen : (b.setErrInfo v w).inLen = b.inLen := rfl
@[simp] theorem Block.setErrInfo_arg0 : (b.setErrInfo v w).arg0 = b.arg0 := rfl
@[simp] theorem Block.setErrInfo_arg1 : (b.setErrInfo v w).arg1 = b.arg1 := rfl
@[simp] theorem Block.setErrInfo_arg2 : (b.setErrInfo v w).arg2 = b.arg2 := rfl
@[simp] theorem Block.setErrInfo_arg3 : (b.setErrInfo v w).arg3 = b.arg3 := rfl
@[simp] theorem Block.setErrInfo_res0 : (b.setErrInfo v w).res0 = b.res0 := rfl
@[simp] theorem Block.setErrInfo_res1 : (b.setErrInfo v w).res1 = b.res1 := rfl
@[simp] theorem Block.setErrInfo_res2 : (b.setErrInfo v w).res2 = b.res2 := rfl
@[simp] theorem Block.setErrInfo_res3 : (b.setErrInfo v w).res3 = b.res3 := rfl
@[simp] theorem Block.setErrInfo_errA : (b.setErrInfo v w).errA = v := rfl
@[simp] theorem Block.setErrInfo_errB : (b.setErrInfo v w).errB = w := rfl
@[simp] theorem Block.setErrInfo_inBuf : (b.setErrInfo v w).inBuf = b.inBuf := rfl
@[simp] theorem Block.setErrInfo_outBuf : (b.setErrInfo v w).outBuf = b.outBuf := rfl

end

section
variable (s : State) (b b' : Block) (v : Word) (n m : Nat)

@[simp] theorem State.setBlock_block : (s.setBlock b).block = b := rfl
@[simp] theorem State.setBlock_host : (s.setBlock b).host = s.host := rfl
@[simp] theorem State.setPos_block : (s.setPos n).block = s.block := rfl
@[simp] theorem State.setPos_program : (s.setPos n).host.program = s.host.program := rfl
@[simp] theorem State.setPos_pos : (s.setPos n).host.pos = n := rfl
@[simp] theorem State.setPos_readVal : (s.setPos n).host.readVal = s.host.readVal := rfl
@[simp] theorem State.setReadVal_block : (s.setReadVal v).block = s.block := rfl
@[simp] theorem State.setReadVal_program : (s.setReadVal v).host.program = s.host.program := rfl
@[simp] theorem State.setReadVal_pos : (s.setReadVal v).host.pos = s.host.pos := rfl
@[simp] theorem State.setReadVal_readVal : (s.setReadVal v).host.readVal = v := rfl
@[simp] theorem State.advance_block : s.advance.block = s.block := rfl
@[simp] theorem State.advance_program : s.advance.host.program = s.host.program := rfl
@[simp] theorem State.advance_pos : s.advance.host.pos = s.host.pos + 1 := rfl
@[simp] theorem State.advance_readVal : s.advance.host.readVal = s.host.readVal := rfl
@[simp] theorem State.setBlock_setBlock : (s.setBlock b).setBlock b' = s.setBlock b' := rfl
@[simp] theorem State.setBlock_self : s.setBlock s.block = s := rfl
@[simp] theorem State.withCommand_block : (s.withCommand v).block = s.block := rfl
@[simp] theorem State.withCommand_pos : (s.withCommand v).host.pos = 0 := rfl
@[simp] theorem State.withCommand_readVal : (s.withCommand v).host.readVal = s.host.readVal := rfl
@[simp] theorem State.withCommand_program :
    (s.withCommand v).host.program = [.wr 0 v] := rfl
@[simp] theorem State.withCommand_stmt : (s.withCommand v).stmt = some (.wr 0 v) := rfl
@[simp] theorem State.withFetchWord_stmt :
    (s.withFetchWord n m).stmt = some (.wr 0 (commandWord n m)) := rfl

end

end Sys2Proof.Machine
end

