-- ==== Sys2Proof/Laws/Ops.lean ====
section
/-! SUPPORT. What the end of a command writes: the fields of the STATUS word it composes, and that
nothing but STATUS (and, for ClockDisparityTooLarge, ERR_A and ERR_B) changes. -/

namespace Sys2Proof.Machine

section
variable (err : ErrKind) (clamp range : Bool) (leg : BitVec 2) (opc : BitVec 8) (b : Block)
variable (first second w : Word)

/-- `complete` writes STATUS alone. -/
theorem complete_eq :
    complete opc clamp range b = { b with status := statusWord .none clamp range 0 opc } := rfl

/-- `raise` writes STATUS alone. -/
theorem raise_eq :
    raise opc err b = { b with status := statusWord err false false 0 opc } := rfl

/-- `raiseDisparity` writes STATUS, ERR_A and ERR_B alone. -/
theorem raiseDisparity_eq :
    raiseDisparity opc leg first second b =
      { b with
        errA := first
        errB := second
        status := statusWord .clockDisparityTooLarge false false leg opc } := rfl

/-- An illegal command word writes STATUS alone. -/
theorem raiseIllegal_eq :
    raiseIllegal w b = { b with status := statusWord .illegalCommand false false 0 (opcField w) } := rfl

/-- The STATUS word as a number, field by field. -/
theorem statusWord_toNat :
    (statusWord err clamp range leg opc).toNat =
      err.code.toNat + 2 ^ 8 * clamp.toNat + 2 ^ 9 * range.toNat + 2 ^ 10 * leg.toNat +
        2 ^ 16 * opc.toNat := by
  have ho := opc.isLt
  have hl := leg.isLt
  have hr := range.toNat_lt
  have hc := clamp.toNat_lt
  have he := err.code.isLt
  simp only [statusWord, BitVec.toNat_append, BitVec.toNat_ofBool, BitVec.toNat_ofNat]
  simp only [Nat.shiftLeft_eq, Nat.zero_mod]
  rw [← Nat.shiftLeft_eq, ← Nat.shiftLeft_eq, ← Nat.shiftLeft_eq, ← Nat.shiftLeft_eq,
    ← Nat.shiftLeft_eq, ← Nat.shiftLeft_eq]
  rw [← Nat.shiftLeft_add_eq_or_of_lt (by omega : err.code.toNat < 2 ^ 8),
    ← Nat.shiftLeft_add_eq_or_of_lt (by omega : clamp.toNat < 2 ^ 1),
    ← Nat.shiftLeft_add_eq_or_of_lt (by omega : range.toNat < 2 ^ 1),
    ← Nat.shiftLeft_add_eq_or_of_lt (by omega : leg.toNat < 2 ^ 2),
    ← Nat.shiftLeft_add_eq_or_of_lt (by omega : 0 < 2 ^ 4),
    ← Nat.shiftLeft_add_eq_or_of_lt (by omega : opc.toNat < 2 ^ 8)]
  simp only [Nat.shiftLeft_eq]
  omega

/-- The STATUS fields as numbers. -/
theorem statusErr_toNat : (statusErr w).toNat = w.toNat % 2 ^ 8 := by simp [statusErr]

theorem statusClamp_eq : statusClamp w = decide (w.toNat / 2 ^ 8 % 2 = 1) := by
  simp [statusClamp, BitVec.getLsbD, Nat.testBit_eq_decide_div_mod_eq]

theorem statusRange_eq : statusRange w = decide (w.toNat / 2 ^ 9 % 2 = 1) := by
  simp [statusRange, BitVec.getLsbD, Nat.testBit_eq_decide_div_mod_eq]

theorem statusLeg_toNat : (statusLeg w).toNat = w.toNat / 2 ^ 10 % 2 ^ 2 := by
  simp [statusLeg, Nat.shiftRight_eq_div_pow]

theorem statusLastOpc_toNat : (statusLastOpc w).toNat = w.toNat / 2 ^ 16 % 2 ^ 8 := by
  simp [statusLastOpc, Nat.shiftRight_eq_div_pow]

/-- Each field of the STATUS word a command's end writes is the one it was given. -/
@[simp] theorem statusErr_statusWord : statusErr (statusWord err clamp range leg opc) = err.code := by
  have he := err.code.isLt
  apply BitVec.eq_of_toNat_eq
  rw [statusErr_toNat, statusWord_toNat]
  omega

@[simp] theorem statusClamp_statusWord :
    statusClamp (statusWord err clamp range leg opc) = clamp := by
  have he := err.code.isLt
  rw [statusClamp_eq, statusWord_toNat]
  cases clamp <;> simp <;> omega

@[simp] theorem statusRange_statusWord :
    statusRange (statusWord err clamp range leg opc) = range := by
  have he := err.code.isLt
  have hc := clamp.toNat_lt
  rw [statusRange_eq, statusWord_toNat]
  cases range <;> simp <;> omega

@[simp] theorem statusLeg_statusWord : statusLeg (statusWord err clamp range leg opc) = leg := by
  have he := err.code.isLt
  have hc := clamp.toNat_lt
  have hr := range.toNat_lt
  have hl := leg.isLt
  apply BitVec.eq_of_toNat_eq
  rw [statusLeg_toNat, statusWord_toNat]
  omega

@[simp] theorem statusLastOpc_statusWord :
    statusLastOpc (statusWord err clamp range leg opc) = opc := by
  have he := err.code.isLt
  have hc := clamp.toNat_lt
  have hr := range.toNat_lt
  have hl := leg.isLt
  have ho := opc.isLt
  apply BitVec.eq_of_toNat_eq
  rw [statusLastOpc_toNat, statusWord_toNat]
  omega

theorem statusReserved_toNat :
    (statusReserved w).toNat = w.toNat / 2 ^ 24 * 2 ^ 4 + w.toNat / 2 ^ 12 % 2 ^ 4 := by
  have hw := w.isLt
  rw [statusReserved, BitVec.toNat_append, ← Nat.shiftLeft_add_eq_or_of_lt (BitVec.isLt _)]
  simp only [BitVec.extractLsb'_toNat, Nat.shiftRight_eq_div_pow, Nat.shiftLeft_eq]
  omega

@[simp] theorem statusReserved_statusWord :
    statusReserved (statusWord err clamp range leg opc) = 0 := by
  have he := err.code.isLt
  have hc := clamp.toNat_lt
  have hr := range.toNat_lt
  have hl := leg.isLt
  have ho := opc.isLt
  apply BitVec.eq_of_toNat_eq
  rw [statusReserved_toNat, statusWord_toNat]
  show _ = 0
  omega

end

end Sys2Proof.Machine
end

