-- ==== Sys2Proof/Laws/Commands.lean ====
section
/-! SUPPORT. What each command does, once: `exec` answers a next state whose host is as before and whose
block is the command's result, and the result's fields. -/

namespace Sys2Proof.Machine

/-- The block a command leaves. -/
def Instr.result (i : Instr) (b : Block) : Block :=
  match i with
  | .buildreq => buildreq Config.params b
  | .encts => encts Config.params b
  | .dects => dects Config.params b
  | .dectsb offset => dectsb Config.params offset b
  | .dechdr => dechdr Config.params b
  | .valid => valid b
  | .rtdelay => rtdelay Config.params b
  | .clkoff => clkoff Config.params b
  | .corrclk => corrclk Config.params b

/-- Every command answers a next state. -/
theorem exec_eq (i : Instr) (s : State) : exec i s = .next (s.setBlock (Instr.result i s.block)) := by
  cases i <;> rfl

theorem exec_next_iff {i : Instr} {s t : State} :
    exec i s = .next t ↔ t = s.setBlock (Instr.result i s.block) := by
  rw [exec_eq, Host.Outcome.next.injEq]
  exact eq_comm

section
variable (p : Params) (b : Block) (offset : Nat)

theorem buildreq_eq :
    buildreq p b = { b with
      outBuf := b.outBuf.writeList 0 (requestOctets (enc p b.arg0).raw)
      res0 := (enc p b.arg0).raw
      status := statusWord .none (enc p b.arg0).clamp false 0 1 } := by
  have key (e : Encoded) (out : Memory) :
      complete Instr.buildreq.opc e.clamp false ((b.setOut out).setRes0 e.raw) =
      { b with
        outBuf := out
        res0 := e.raw
        status := statusWord .none e.clamp false 0 1 } := rfl
  exact key (enc p b.arg0) _

theorem encts_eq :
    encts p b = { b with
      res0 := (enc p b.arg0).raw
      status := statusWord .none (enc p b.arg0).clamp false 0 2 } := by
  have key (e : Encoded) :
      complete Instr.encts.opc e.clamp false (b.setRes0 e.raw) =
      { b with res0 := e.raw, status := statusWord .none e.clamp false 0 2 } := rfl
  exact key (enc p b.arg0)

theorem dects_eq :
    dects p b = { b with
      res0 := dec p b.arg0
      status := statusWord .none false false 0 3 } := rfl

/-- DECTSB completes or raises MalformedPacket. -/
theorem dectsb_cases :
    (min b.inLen.toNat p.pktInCap < offset + 8 ∧
      dectsb p offset b = { b with status := statusWord .malformedPacket false false 0 4 }) ∨
    (offset + 8 ≤ min b.inLen.toNat p.pktInCap ∧
      dectsb p offset b = { b with
        res0 := dec p (be64 b.inBuf offset)
        status := statusWord .none false false 0 4 }) := by
  unfold dectsb fieldOutside
  split <;> rename_i h
  · exact .inl ⟨of_decide_eq_true h, rfl⟩
  · exact .inr ⟨not_lt.1 fun h' => h (decide_eq_true h'), rfl⟩

/-- DECHDR completes or raises MalformedPacket. -/
theorem dechdr_cases :
    (b.inLen.toNat < 48 ∧
      dechdr p b = { b with status := statusWord .malformedPacket false false 0 5 }) ∨
    (48 ≤ b.inLen.toNat ∧
      dechdr p b = { b with
        res0 := dec p (be64 b.inBuf 24)
        res1 := dec p (be64 b.inBuf 32)
        res2 := dec p (be64 b.inBuf 40)
        res3 := dec p (be64 b.inBuf 16)
        status := statusWord .none false false 0 5 }) := by
  unfold dechdr headerShort headerLength
  split <;> rename_i h
  · exact .inl ⟨of_decide_eq_true h, rfl⟩
  · exact .inr ⟨not_lt.1 fun h' => h (decide_eq_true h'), rfl⟩

/-- VALID writes STATUS alone, with the error of the first check that fails. -/
theorem valid_eq : valid b = { b with status := statusWord (validError b) false false 0 6 } := by
  unfold valid
  cases validError b <;> rfl

/-- The errors VALID can report. -/
theorem validError_mem :
    validError b ∈ [ErrKind.none, .malformedPacket, .clockNotSynchronized, .invalidVersion,
      .unexpectedMode] := by
  unfold validError
  repeat' split
  all_goals decide

theorem rtdelay_eq :
    rtdelay p b = { b with
      res0 := wrap64 (delayTicks b)
      res1 := rn (delayTicks b) (ticksPerMs p)
      status := statusWord .none false (!fitsI64 (delayTicks b)) 0 7 } := rfl

/-- CLKOFF raises one of its three errors or completes. -/
theorem clkoff_cases :
    (legFails p b.arg1 b.arg0 = true ∧
      clkoff p b = { b with
        errA := b.arg0
        errB := b.arg1
        status := statusWord .clockDisparityTooLarge false false 1 8 }) ∨
    (legFails p b.arg1 b.arg0 = false ∧ legFails p b.arg2 b.arg3 = true ∧
      clkoff p b = { b with
        errA := b.arg2
        errB := b.arg3
        status := statusWord .clockDisparityTooLarge false false 2 8 }) ∨
    (legFails p b.arg1 b.arg0 = false ∧ legFails p b.arg2 b.arg3 = false ∧
      transmitZero p b.arg2 = true ∧
      clkoff p b = { b with status := statusWord .invalidTransmitTimestamp false false 0 8 }) ∨
    (legFails p b.arg1 b.arg0 = false ∧ legFails p b.arg2 b.arg3 = false ∧
      transmitZero p b.arg2 = false ∧
      clkoff p b = { b with
        res0 := wrap64 (offsetTicks b)
        res1 := rn (offsetTicks b) (2 * ticksPerMs p)
        status := statusWord .none false false 0 8 }) := by
  unfold clkoff
  cases h1 : legFails p b.arg1 b.arg0
  · cases h2 : legFails p b.arg2 b.arg3
    · cases h3 : transmitZero p b.arg2
      · exact .inr (.inr (.inr ⟨rfl, rfl, rfl, rfl⟩))
      · exact .inr (.inr (.inl ⟨rfl, rfl, rfl, rfl⟩))
    · exact .inr (.inl ⟨rfl, rfl, rfl⟩)
  · exact .inl ⟨rfl, rfl⟩

/-- CORRCLK raises RangeError or completes. -/
theorem corrclk_cases :
    ((F64.finite b.arg1 = false ∨ fitsI64 (instant b.arg0 + correctionTicks p b.arg1) = false) ∧
      corrclk p b = { b with status := statusWord .rangeError false false 0 9 }) ∨
    (F64.finite b.arg1 = true ∧ fitsI64 (instant b.arg0 + correctionTicks p b.arg1) = true ∧
      corrclk p b = { b with
        res0 := wrap64 (instant b.arg0 + correctionTicks p b.arg1)
        status := statusWord .none false false 0 9 }) := by
  unfold corrclk
  cases h1 : F64.finite b.arg1
  · exact .inl ⟨.inl rfl, rfl⟩
  · cases h2 : fitsI64 (instant b.arg0 + correctionTicks p b.arg1)
    · exact .inl ⟨.inr rfl, rfl⟩
    · exact .inr ⟨rfl, rfl, rfl⟩

end

end Sys2Proof.Machine
end

