-- ==== Sys2Proof/Laws/PerInstr.lean ====
section
/-! SUPPORT. The family of lemmas made once per constructor of `Instr`. -/

namespace Sys2Proof.Laws.EncodeFields

/-- The fields of a well-formed command's word: RSV is 0, OPC is the command's code, and IMM8 is 0 but
for DECTSB's offset (30_encoding.md R110 to R113). -/
def Statement (i : Instr) : Prop :=
  i.wellFormed = true →
    rsvField (encode i) = 0#48 ∧ opcField (encode i) = i.opc ∧
      (imm8Field (encode i)).toNat = match i with | .dectsb offset => offset | _ => 0

theorem buildreq : Statement .buildreq := by intro _; decide
theorem encts : Statement .encts := by intro _; decide
theorem dects : Statement .dects := by intro _; decide
theorem dechdr : Statement .dechdr := by intro _; decide
theorem valid : Statement .valid := by intro _; decide
theorem rtdelay : Statement .rtdelay := by intro _; decide
theorem clkoff : Statement .clkoff := by intro _; decide
theorem corrclk : Statement .corrclk := by intro _; decide

theorem dectsb (offset : Nat) : Statement (.dectsb offset) := by
  intro h
  have hlt : offset < 256 := of_decide_eq_true h
  have hw : (encode (.dectsb offset)).toNat = offset * 256 + 4 := by
    have e1 : (BitVec.ofNat 64 offset <<< 8).toNat = offset <<< 8 := by
      simp only [BitVec.toNat_shiftLeft, BitVec.toNat_ofNat, Nat.shiftLeft_eq]
      omega
    show (BitVec.ofNat 64 offset <<< 8 ||| 4#64).toNat = _
    rw [BitVec.toNat_or, e1, BitVec.toNat_ofNat,
      ← Nat.shiftLeft_add_eq_or_of_lt (by omega : 4 % 2 ^ 64 < 2 ^ 8), Nat.shiftLeft_eq]
    omega
  refine ⟨?_, ?_, ?_⟩
  · apply BitVec.eq_of_toNat_eq
    simp only [rsvField, BitVec.extractLsb'_toNat, hw, Nat.shiftRight_eq_div_pow, BitVec.toNat_ofNat]
    omega
  · apply BitVec.eq_of_toNat_eq
    simp only [opcField, BitVec.extractLsb'_toNat, hw, Nat.shiftRight_eq_div_pow]
    show _ = 4
    omega
  · simp only [imm8Field, BitVec.extractLsb'_toNat, hw, Nat.shiftRight_eq_div_pow]
    omega

end Sys2Proof.Laws.EncodeFields
end

