-- ==== Sys2Proof/Laws/Step.lean ====
section
/-! SUPPORT. What a step can do, once: every step answers a next state, and the block it leaves is one
of five kinds. -/

namespace Sys2Proof.Machine

/-- A CMD write runs the decoded command. -/
theorem command_ok {w : Word} {i : Instr} (h : decode w = .ok i) (s : State) :
    command w s = exec i s := by simp only [command, h]

/-- A CMD write of an illegal word reports IllegalCommand. -/
theorem command_error {w : Word} {e : Illegal} (h : decode w = .error e) (s : State) :
    command w s = .next (s.setBlock (raiseIllegal w s.block)) := by simp only [command, h]

/-- The block a register write leaves. -/
inductive Wrote (r : Index) (v : Word) (b : Block) : Block → Prop where
  | stored (hr : Reg.ofIndex r.toNat ≠ .cmd) : Wrote r v b (b.writeReg v (Reg.ofIndex r.toNat))
  | ran (hr : Reg.ofIndex r.toNat = .cmd) {i : Instr} (hi : decode v = .ok i) :
      Wrote r v b (Instr.result i b)
  | illegal (hr : Reg.ofIndex r.toNat = .cmd) {e : Illegal} (he : decode v = .error e) :
      Wrote r v b (raiseIllegal v b)

/-- A register write answers a next state in which the host is as before. -/
theorem hostWrReg_next (r : Index) (v : Word) (s : State) :
    ∃ b, hostWrReg r v s = .next (s.setBlock b) ∧ Wrote r v s.block b := by
  unfold hostWrReg
  cases hr : Reg.ofIndex r.toNat
  case cmd =>
    cases hd : decode v with
    | ok i => exact ⟨_, by rw [command_ok hd, exec_eq], .ran hr hd⟩
    | error e => exact ⟨_, command_error hd s, .illegal hr hd⟩
  all_goals exact ⟨_, rfl, hr ▸ .stored (by rw [hr]; exact Reg.noConfusion)⟩

/-- What one statement of the host does to the block. -/
inductive Did (p : Params) (s : State) : HostStmt → Block → Prop where
  | kept {stmt : HostStmt} : Did p s stmt s.block
  | wrote {r : Index} {v : Word} {b : Block} (h : Wrote r v s.block b) : Did p s (.wr r v) b
  | wroteRead {r : Index} {b : Block} (h : Wrote r s.host.readVal s.block b) : Did p s (.wrRead r) b
  | stored {i : Index} {v : Byte} : Did p s (.wrb i v) (hostWrIn p s.block i v)
  | reset : Did p s .reset Block.reset

/-- A statement answers a next state. -/
theorem perform_next (p : Params) (stmt : HostStmt) (s : State) :
    ∃ t, perform p stmt s = .next t ∧ Did p s stmt t.block := by
  cases stmt with
  | wr r v =>
    obtain ⟨b, h, hw⟩ := hostWrReg_next r v s.advance
    exact ⟨_, h, .wrote hw⟩
  | wrRead r =>
    obtain ⟨b, h, hw⟩ := hostWrReg_next r s.host.readVal s.advance
    exact ⟨_, h, .wroteRead hw⟩
  | wrb i v => exact ⟨_, rfl, .stored⟩
  | reset => exact ⟨_, rfl, .reset⟩
  | jerr target =>
    simp only [perform]
    split
    · exact ⟨_, rfl, .kept⟩
    · exact ⟨_, rfl, .kept⟩
  | rd r => exact ⟨_, rfl, .kept⟩
  | rdbIn i => exact ⟨_, rfl, .kept⟩
  | rdbOut i => exact ⟨_, rfl, .kept⟩
  | rdbTxt i => exact ⟨_, rfl, .kept⟩
  | jmp target => exact ⟨_, rfl, .kept⟩
  | halt => exact ⟨_, rfl, .kept⟩

/-- A step with a statement to perform performs it. -/
theorem step_some {s : State} {stmt : HostStmt} (h : s.stmt = some stmt) :
    step s = perform Config.params stmt s := by simp only [step, hostTurn, h]

/-- A step past the end of the host's program changes nothing. -/
theorem step_none {s : State} (h : s.stmt = none) : step s = .next s := by
  simp only [step, hostTurn, h]

/-- What a step can do: nothing, past the end of the program; or one statement. -/
theorem step_cases {s t : State} (h : step s = .next t) :
    (s.stmt = none ∧ t = s) ∨ ∃ stmt, s.stmt = some stmt ∧ Did Config.params s stmt t.block := by
  cases hs : s.stmt with
  | none =>
    rw [step_none hs, Host.Outcome.next.injEq] at h
    exact .inl ⟨rfl, h.symm⟩
  | some stmt =>
    obtain ⟨t', ht, hd⟩ := perform_next Config.params stmt s
    rw [step_some hs, ht, Host.Outcome.next.injEq] at h
    exact .inr ⟨stmt, rfl, h ▸ hd⟩

end Sys2Proof.Machine
end

