-- ==== Sys2Proof/Tests/Slice0.lean ====
section
/-! SUPPORT. The model's own tests, their expected values taken from spec/95_test_vectors.md and the
opcode table, and a witness that meets the hypotheses of each statement that has some. -/

open Sys2Proof Sys2Proof.Machine

namespace Sys2Proof.Tests

/-! ### Helpers -/

/-- A machine whose host is about to perform one statement. -/
def hostAt (b : Block) (stmt : HostStmt) : State where
  block := b
  host := { program := [stmt], pos := 0, readVal := 0 }

/-- The block of a next state. -/
def blockOf : Host.Outcome State Fault Refusal → Block
  | .next s => s.block
  | .fault r => nomatch r
  | .refused _ => Block.reset

/-- The block after one step that writes a command word. -/
def after (b : Block) (w : Word) : Block := blockOf (step (hostAt b (.wr 0 w)))

/-- A signed value's register contents. -/
def i64 (x : Int) : Word := wrap64 x

/-- The four instants in ARG0 to ARG3. -/
def instants (t1 t2 t3 t4 : Int) : Block :=
  { Block.reset with arg0 := i64 t1, arg1 := i64 t2, arg2 := i64 t3, arg3 := i64 t4 }

/-- The NTP epoch, the disparity limit and 2024-01-01 at the default TICK_HZ. -/
def ne : Int := -22089888000000000
def limit : Int := 10722240000000000
def y2024 : Int := 17040672000000000

/-- An inbound packet and its length. -/
def packet (octets : List Byte) (len : Word) : Block :=
  { Block.reset with inBuf := Memory.writeList [] 0 octets, inLen := len }

/-- The header of program P2's reply, then its reference timestamp. -/
def replyHeader : List Byte :=
  [0x24, 0x02, 0x03, 0xE8, 0x00, 0x04, 0x5D, 0x00, 0x00, 0x00, 0x0A, 0x3D, 0xC0, 0xA8, 0x01, 0x01,
    0xE9, 0x3C, 0x7E, 0xF8, 0x00, 0x00, 0x00, 0x00]

/-- What the rendering reads as, 16 octets. -/
def text (b : Block) : List Nat :=
  (List.range 16).map fun j => (hostRdTxt b (BitVec.ofNat 32 j)).toNat

/-- The default parameters with both arithmetics EXACT. -/
def exactParams : Params := { Config.params with encodeArith := .exact, decodeArith := .exact }

/-! ### WellFormed refuses ill-formed terms -/

theorem test_wellFormed_offset_255 : (Instr.dectsb 255).wellFormed = true := by decide
theorem test_wellFormed_offset_256 : (Instr.dectsb 256).wellFormed = false := by decide
theorem test_legal_tickHz_below : ({ Config.params with tickHz := 0 } : Params).legal = false := by decide
theorem test_legal_tickHz_above :
    ({ Config.params with tickHz := 1000001000 } : Params).legal = false := by decide
theorem test_legal_tickHz_multiple :
    ({ Config.params with tickHz := 10000001 } : Params).legal = false := by decide
theorem test_legal_pktInCap : ({ Config.params with pktInCap := 47 } : Params).legal = false := by decide

/-! ### Decode, on words written out from the spec's encodings: RSV, IMM8, OPC (30_encoding.md R110) -/

theorem test_decode_buildreq : decode (0#48 ++ 0b00000000#8 ++ 0b00000001#8) = .ok .buildreq := by decide
theorem test_decode_encts : decode (0#48 ++ 0b00000000#8 ++ 0b00000010#8) = .ok .encts := by decide
theorem test_decode_dects : decode (0#48 ++ 0b00000000#8 ++ 0b00000011#8) = .ok .dects := by decide
theorem test_decode_dectsb : decode (0#48 ++ 0b00111100#8 ++ 0b00000100#8) = .ok (.dectsb 60) := by decide
theorem test_decode_dechdr : decode (0#48 ++ 0b00000000#8 ++ 0b00000101#8) = .ok .dechdr := by decide
theorem test_decode_valid : decode (0#48 ++ 0b00000000#8 ++ 0b00000110#8) = .ok .valid := by decide
theorem test_decode_rtdelay : decode (0#48 ++ 0b00000000#8 ++ 0b00000111#8) = .ok .rtdelay := by decide
theorem test_decode_clkoff : decode (0#48 ++ 0b00000000#8 ++ 0b00001000#8) = .ok .clkoff := by decide
theorem test_decode_corrclk : decode (0#48 ++ 0b00000000#8 ++ 0b00001001#8) = .ok .corrclk := by decide
theorem test_decode_reserved_opcodes :
    decode 0x00 = .error .reservedOpcode ∧ decode 0x0A = .error .reservedOpcode ∧
      decode 0xFF = .error .reservedOpcode := by decide
theorem test_decode_imm8 : decode 0x0105 = .error .nonzeroImm8 := by decide
theorem test_decode_rsv :
    decode 0x10001 = .error .reservedField ∧ decode 0x8000000000000004 = .error .reservedField := by
  decide
theorem test_decodeTableWord : decodeTableWord 64 0x3C04 = some (.dectsb 60) := by decide

/-! ### Commands (95_test_vectors.md section 2) -/

theorem test_buildreq_p1 :
    let b := after { Block.reset with arg0 := i64 y2024 } 0x01
    (b.status, b.res0, b.outBuf) =
      (0x00010000, 0xE93C7F0000000000, [(0, 0x23), (40, 0xE9), (41, 0x3C), (42, 0x7F)]) := by decide
theorem test_buildreq_before_epoch :
    let b := after { Block.reset with arg0 := i64 (ne - 1), outBuf := [(41, 0x3C)] } 0x01
    (b.status, b.res0, b.outBuf) = (0x00010100, 0, [(0, 0x23)]) := by decide
theorem test_encts_loses_a_tick :
    (after { Block.reset with arg0 := i64 (y2024 + 1) } 0x02).res0 = 0xE93C7F0000000000 := by decide
theorem test_encts_int64_max_wraps :
    let b := after { Block.reset with arg0 := i64 (2 ^ 63 - 1) } 0x02
    (b.status, b.res0) = (0x00020100, 0x433F54657A400000) := by decide
theorem test_enc_exact : enc exactParams (i64 (y2024 + 1000000)) =
    { raw := 0xE93C7F0019999999, clamp := false } := by decide
theorem test_enc_exact_int64_max_wraps : enc exactParams (i64 (2 ^ 63 - 1)) =
    { raw := 0x433F54657A42BA8F, clamp := true } := by decide
theorem test_dects_tie_to_even :
    (after { Block.reset with arg0 := 0x0000000001000000 } 0x03).res0 = i64 (-22089887999960938) := by
  decide
theorem test_dects_grid_of_8 :
    (after { Block.reset with arg0 := 0xE93C7F001C0639D5 } 0x03).res0 = i64 17040672001094696 := by
  decide +kernel
theorem test_dec_exact : dec exactParams 0xE93C7F001C0639D5 = i64 17040672001094700 := by decide

/-- IN[60..67] = 83 AA 7E 80 80 00 00 00. -/
def trailer : Memory := Memory.writeList [] 60 [0x83, 0xAA, 0x7E, 0x80, 0x80]

theorem test_dectsb_offset_60 :
    let b := after { Block.reset with inBuf := trailer, inLen := 68 } 0x3C04
    (b.status, b.res0) = (0x00040000, 5000000) := by decide
theorem test_dectsb_capacity :
    let b := after { Block.reset with inBuf := trailer, inLen := 200, res0 := 7 } 0x3D04
    (b.status, b.res0) = (0x00040001, 7) := by decide
theorem test_dechdr_reference :
    let b := after (packet replyHeader 48) 0x05
    (b.status, b.res0, b.res3) = (0x00050000, i64 ne, i64 17040671920000000) := by decide
theorem test_dechdr_short : (after (packet replyHeader 47) 0x05).status = 0x00050001 := by decide
theorem test_valid_broadcast : (after (packet [0x25] 48) 0x06).status = 0x00060000 := by decide
theorem test_valid_first_failing_check : (after (packet [0xC0] 48) 0x06).status = 0x00060002 := by decide
theorem test_rtdelay_negative :
    let b := after (instants y2024 y2024 (y2024 + 100) y2024) 0x07
    (b.status, b.res0, b.res1) = (0x00070000, 0xFFFFFFFFFFFFFF9C, 0xBF847AE147AE147B) := by decide
theorem test_rtdelay_range :
    let b := after (instants (-2 ^ 63) 0 0 (2 ^ 63 - 1)) 0x07
    (b.status, b.res0, b.res1) = (0x00070200, 0xFFFFFFFFFFFFFFFF, 0x431A36E2EB1C432D) := by decide
theorem test_clkoff_s6 :
    let b := after (instants y2024 (y2024 + 1094700) (y2024 + 1094900) (y2024 + 3512800)) 0x08
    (b.status, b.res0, b.res1) = (0x00080000, 0xFFFFFFFFFFEBCF40, 0xC0508A3D70A3D70A) := by decide
theorem test_clkoff_leg_2 :
    let b := after (instants y2024 y2024 y2024 (y2024 + limit + 1)) 0x08
    (b.status, b.errA, b.errB) = (0x00080805, i64 y2024, i64 (y2024 + limit + 1)) := by decide
theorem test_corrclk_s6 :
    let b := after { Block.reset with arg0 := i64 17040672003512800, arg1 := 0xC0508A3D70A3D70A } 0x09
    (b.status, b.res0) = (0x00090000, i64 17040672002851200) := by decide
theorem test_corrclk_range :
    let b := after { Block.reset with arg0 := i64 (2 ^ 63 - 1), arg1 := 0x3FF0000000000000 } 0x09
    (b.status, b.res0) = (0x00090009, 0) := by decide
theorem test_illegal_command : (after Block.reset 0x00FF).status = 0x00FF0008 := by decide

/-! ### Views (95_test_vectors.md section 2.5) -/

theorem test_view_fields :
    let v (r : Index) : Nat := (hostRdReg Config.params (packet replyHeader 48) r).toNat
    [v 16, v 17, v 18, v 19, v 20, v 21, v 22, v 23, v 24, v 25] =
      [0, 4, 4, 4, 2, 2, 3, 0x4020000000000000, 0xFFFFFFFFFFFFFFE8, 0x404DCD6500000000] := by decide
theorem test_view_fixed_point :
    let v (r : Index) : Nat := (hostRdReg Config.params (packet replyHeader 48) r).toNat
    [v 26, v 27, v 28, v 29, v 30, v 31, v 32, v 33] =
      [285952, 0x40B10B4800000000, 2621, 0x4043FF2400000000, 0xC0A80101, 1, 11,
        0xE93C7EF800000000] := by decide
theorem test_text_ipv4 : text (packet replyHeader 48) =
    [0x31, 0x39, 0x32, 0x2E, 0x31, 0x36, 0x38, 0x2E, 0x31, 0x2E, 0x31, 0, 0, 0, 0, 0] := by decide
theorem test_text_hex : text { packet replyHeader 48 with cfg := 1 } =
    [0x43, 0x30, 0x41, 0x38, 0x30, 0x31, 0x30, 0x31, 0, 0, 0, 0, 0, 0, 0, 0] := by decide

/-! ### The host's script -/

theorem test_ldpkt : Script.ldpkt [0x21, 0x02] = [.wrb 0 0x21, .wrb 1 0x02, .wr 3 2] := by decide
theorem test_script_dectsb : Script.command (.dectsb 60) = [.wr 0 0x3C04] := by decide
theorem test_cfg_write_keeps_bit_0 :
    (blockOf (step (hostAt Block.reset (.wr 2 0xFFFFFFFFFFFFFFFF)))).cfg = 1 := by decide

/-! ### Witnesses: each statement's hypotheses are met, clause by clause -/

theorem witness_DecodeOfEncodeIsTheCommand :
    (Instr.dectsb 255).wellFormed = true ∧ Instr.corrclk.wellFormed = true := by decide

theorem witness_EncodeOfDecodeIsTheWord : decode 0xFF04 = .ok (.dectsb 255) := by decide

theorem writesCmd_hostAt (b : Block) (w : Word) : (hostAt b (.wr 0 w)).WritesCmd w := .inl rfl

theorem witness_CmdWriteRunsTheCommandOrIsIllegal :
    (∀ w : Word, (hostAt Block.reset (.wr 0 w)).WritesCmd w) ∧
      (0x10001#64).toNat / 65536 ≠ 0 ∧ (0x00#64).toNat % 256 = 0 ∧ 9 < (0x0A#64).toNat % 256 ∧
      ((0x0105#64).toNat % 256 ≠ 4 ∧ (0x0105#64).toNat / 256 % 256 ≠ 0) ∧
      ((0xFF04#64).toNat / 65536 = 0 ∧ (0xFF04#64).toNat % 256 = 4) ∧
      ∀ k ∈ [1, 2, 3, 5, 6, 7, 8, 9], (BitVec.ofNat 64 k).toNat / 65536 = 0 ∧
        (BitVec.ofNat 64 k).toNat / 256 % 256 = 0 ∧ (BitVec.ofNat 64 k).toNat % 256 = k :=
  ⟨writesCmd_hostAt _, by decide⟩

theorem witness_NoCommandReadsAFlag : (hostAt Block.reset (.wr 0 0x0A)).WritesCmd 0x0A := .inl rfl

theorem witness_StepRunsTheDecodedCommand :
    (hostAt Block.reset (.wr 0 0x06)).WritesCmd 0x06 ∧ decode 0x06 = .ok .valid ∧
      ({ block := Block.reset, host := { program := [.wrRead 0], pos := 0, readVal := 0x06 } } :
        State).WritesCmd 0x06 := ⟨.inl rfl, by decide, .inr ⟨rfl, rfl⟩⟩

/-- A CMD write of an illegal word, one of a command that fails, and one of a command that completes. -/
theorem witness_CommandEndWritesStatus :
    ∃ s t : State, s.WritesCmd 0x0A ∧ step s = .next t ∧ t.block.status.toNat % 256 = 8 :=
  ⟨hostAt Block.reset (.wr 0 0x0A), _, .inl rfl, rfl, by decide⟩

theorem witness_CommandEndWritesStatus_leg :
    ∃ s t : State, s.WritesCmd 0x08 ∧ step s = .next t ∧ t.block.status = 0x80405 :=
  ⟨hostAt (instants ne y2024 y2024 y2024) (.wr 0 0x08), _, .inl rfl, rfl, by decide⟩

theorem witness_ErrorsOfEachCommand : ∃ s t : State, exec .valid s = .next t := ⟨State.reset, _, rfl⟩

theorem witness_ErrorLeavesOperandsAndResults :
    ∃ s t : State, s.WritesCmd 0x05 ∧ step s = .next t ∧ t.block.status.toNat % 256 ≠ 0 :=
  ⟨hostAt (packet replyHeader 47) (.wr 0 0x05), _, .inl rfl, rfl, by decide⟩

theorem witness_CommandsWriteOnlyWhatTheyName :
    ∃ s t : State, exec .clkoff s = .next t ∧ Instr.clkoff ≠ .buildreq ∧ Instr.clkoff ≠ .dechdr :=
  ⟨State.reset, _, rfl, by decide, by decide⟩

/-- 0.03125 and 1.0 as rationals. -/
theorem toRat_one_32nd : F64.toRat 0x3FA0000000000000 = 1 / 32 := by
  have hn : F64.num 0x3FA0000000000000 = 2 ^ 52 := by decide
  have hd : F64.den 0x3FA0000000000000 = 2 ^ 57 := by decide
  rw [F64.toRat_eq, hn, hd]
  norm_num

theorem toRat_one : F64.toRat 0x3FF0000000000000 = 1 := by
  have hn : F64.num 0x3FF0000000000000 = 2 ^ 52 := by decide
  have hd : F64.den 0x3FF0000000000000 = 2 ^ 52 := by decide
  rw [F64.toRat_eq, hn, hd]
  norm_num

theorem witness_RoundingIsToNearestTiesToEven :
    |((1 : Int) : ℚ) / (3 : Nat)| < 2 ^ 1024 - 2 ^ 970 ∧ ((5 : Int) : ℚ) = (10 : Int) / (2 : Nat) ∧
      F64.finite 0x3FA0000000000000 = true ∧ F64.finite 0x3FF0000000000000 = true ∧
      F64.toRat 0x3FA0000000000000 + F64.toRat 0x3FF0000000000000 = (33 : Int) / (32 : Nat) ∧
      F64.toRat 0x3FA0000000000000 * F64.toRat 0x3FF0000000000000 = (1 : Int) / (32 : Nat) ∧
      0 < F64.toRat 0x3FF0000000000000 ∧
      F64.toRat 0x3FA0000000000000 / F64.toRat 0x3FF0000000000000 = (2 : Int) / (64 : Nat) := by
  have h : (2 : ℚ) ^ 1024 = 2 ^ 970 * 2 ^ 54 := by rw [← pow_add]
  have h1 : (1 : ℚ) ≤ 2 ^ 970 := one_le_pow₀ (by norm_num)
  rw [toRat_one_32nd, toRat_one, h]
  generalize (2 : ℚ) ^ 970 = x at h1
  refine ⟨?_, by norm_num, by decide, by decide, by norm_num, by norm_num, by norm_num, by norm_num⟩
  rw [abs_of_pos (by norm_num)]
  norm_num
  linarith

theorem witness_IntegerRoundingIsToNearestEven : 0 < 2 := by decide

theorem witness_EncClampsAndPacks :
    Config.params.legal = true ∧ exactParams.legal = true ∧
      (i64 (ne - 1)).toInt < ntpEpoch Config.params ∧ ntpEpoch Config.params ≤ (i64 ne).toInt ∧
      ntpEpoch exactParams ≤ (i64 (2 ^ 63 - 1)).toInt := by decide

theorem witness_EncBinary64FollowsThePipeline :
    Config.params.legal = true ∧ 2 ^ 64 - 1 < 2 ^ 64 := by decide

theorem witness_EncBinary64FractionIsOneFraction :
    Config.params.legal = true ∧ 21474836480000000 < 2 ^ 64 ∧
      2 ^ 31 ≤ F64.toRat (fdiv (fcvt (21474836480000000 : Nat)) (fcvt Config.params.tickHz)) := by
  have h : fdiv (fcvt (21474836480000000 : Nat)) (fcvt Config.params.tickHz) = 0x41E0000000000000 := by
    decide
  have hn : F64.num 0x41E0000000000000 = 2 ^ 52 := by decide
  have hd : F64.den 0x41E0000000000000 = 2 ^ 21 := by decide
  refine ⟨by decide, by decide, ?_⟩
  rw [h, F64.toRat_eq, hn, hd]
  norm_num

/-- At the epoch, at the last tick of era 0, at its end. -/
theorem witness_EncExactIsTheTruncatedDelta :
    exactParams.legal = true ∧ exactParams.encodeArith = .exact ∧
      ntpEpoch exactParams ≤ (i64 ne).toInt ∧
      (i64 20859784959999999).toInt - ntpEpoch exactParams < 2 ^ 32 * (exactParams.tickHz : Int) ∧
      2 ^ 32 * (exactParams.tickHz : Int) ≤ (i64 20859784960000000).toInt - ntpEpoch exactParams := by
  decide

theorem witness_EncAfterEraZeroSetsClamp :
    ntpEpoch Config.params + 2 ^ 32 * Config.params.tickHz ≤ (i64 20859784960000000).toInt := by decide

theorem witness_DecFollowsThePipeline :
    Config.params.legal = true ∧ Config.params.decodeArith = .binary64 ∧ exactParams.legal = true ∧
      exactParams.decodeArith = .exact := by decide

theorem witness_ExactRoundTripIsTheIdentity :
    exactParams.legal = true ∧ exactParams.encodeArith = .exact ∧ exactParams.decodeArith = .exact ∧
      (enc exactParams (i64 20859784959999999)).clamp = false := by decide

theorem witness_Binary64RoundTripIsWithinAMicrosecond :
    (enc Config.params (i64 (y2024 + 1094700))).clamp = false := by decide

theorem witness_BuildreqBuildsTheRequest : Memory.wf [(0, 0x23), (47, 0x01)] = true := by decide

theorem statusLegal_zero : StatusLegal 0 := by constructor <;> decide

/-- The invariant of a state whose OUT holds an earlier request. -/
theorem inv_of_outBuf (m : Memory) (hwf : m.wf = true) (hin : m.within 48 = true) :
    ({ State.reset with block := { Block.reset with outBuf := m } } : State).Inv where
  inWf := rfl
  inWithin := rfl
  outWf := hwf
  outWithin := hin
  cfgReserved := by change (0 : Word).toNat < 2; decide
  status := statusLegal_zero

theorem witness_BuildreqErasesTheEarlierRequest :
    ∃ s s' t t' : State, s.Inv ∧ s'.Inv ∧ s.block.arg0 = s'.block.arg0 ∧
      s.block.outBuf ≠ s'.block.outBuf ∧ exec .buildreq s = .next t ∧ exec .buildreq s' = .next t' :=
  ⟨_, _, _, _, inv_of_outBuf [(0, 0x23), (47, 0x01)] rfl rfl, inv_of_outBuf [] rfl rfl, rfl, by decide,
    rfl, rfl⟩

theorem witness_RequestTimestampIsRes0 :
    ∃ s t : State, s.block.outBuf.wf = true ∧ exec .buildreq s = .next t := ⟨State.reset, _, rfl, rfl⟩

theorem witness_DectsbDecodesTheFieldOrIsMalformed :
    (40 + 8 ≤ (48#64).toNat ∧ 40 + 8 ≤ 68) ∧ (60 + 8 ≤ (68#64).toNat ∧ 60 + 8 ≤ 68) ∧
      (48#64).toNat < 41 + 8 ∧ 68 < 61 + 8 := by decide

theorem witness_DechdrDecodesTheTimestampsOrIsMalformed :
    48 ≤ (packet [] 48).inLen.toNat ∧ (packet [] 47).inLen.toNat < 48 := by decide

theorem witness_SecondDechdrChangesNothing : ∃ s t : State, exec .dechdr s = .next t :=
  ⟨hostAt (packet replyHeader 48) .halt, _, rfl⟩

theorem witness_ValidReadsLengthAndFirstOctetOnly :
    ∃ s s' t t' : State, s.block.inLen = s'.block.inLen ∧
      s.block.inBuf.read 0 = s'.block.inBuf.read 0 ∧ s.block ≠ s'.block ∧
      exec .valid s = .next t ∧ exec .valid s' = .next t' :=
  ⟨hostAt (packet [0x24, 0x00] 48) .halt, hostAt { packet [0x24, 0x02] 48 with cfg := 1 } .halt, _, _,
    rfl, rfl, by decide, rfl, rfl⟩

/-- Leg 1 past the limit; leg 1 at it and leg 2 past it; T3 within a second of the epoch; T3 a second
after it. -/
theorem witness_ClkoffChecksThenReturnsTheOffset :
    limit < |(i64 (y2024 + limit + 1)).toInt - (i64 y2024).toInt| ∧
      |(i64 (y2024 + limit)).toInt - (i64 y2024).toInt| ≤ limit ∧
      limit < |(i64 y2024).toInt - (i64 (y2024 + limit + 1)).toInt| ∧
      |(i64 (ne + 9999999)).toInt - ne| < 10000000 ∧
      10000000 ≤ |(i64 (ne + 10000000)).toInt - ne| ∧
      |(i64 (ne + 10000000)).toInt - (i64 ne).toInt| ≤ limit := by decide

theorem witness_ClkoffSumFitsAndRangeIsClear :
    Config.params.legal = true ∧
      |(i64 (y2024 + limit)).toInt - (i64 y2024).toInt| ≤ 1072224000 * Config.params.tickHz ∧
      (Config.params.tickHz : Int) ≤ |(i64 y2024).toInt - ntpEpoch Config.params| := by decide

/-- An infinity; 312.5 ticks, a tie; a result one past the range; a result at its end. -/
theorem witness_CorrclkAddsTheRoundedOffset :
    (0x7FF0000000000000#64).toNat / 2 ^ 52 % 2 ^ 11 = 2047 ∧
      (0x3FA0000000000000#64).toNat / 2 ^ 52 % 2 ^ 11 ≠ 2047 ∧
      IsNearestInt 312 (F64.toRat 0x3FA0000000000000 * 10000) ∧
      IsNearestInt 10000 (F64.toRat 0x3FF0000000000000 * 10000) ∧
      2 ^ 63 - 1 < (i64 (2 ^ 63 - 10000)).toInt + 10000 ∧
      (i64 (2 ^ 63 - 10001)).toInt + 10000 ≤ 2 ^ 63 - 1 := by
  rw [toRat_one_32nd, toRat_one]
  refine ⟨by decide, by decide, ⟨?_, fun _ => by decide⟩, ⟨?_, fun _ => by decide⟩, by decide,
    by decide⟩
  · norm_num [abs_of_neg]
  · norm_num

/-- Stratum 1; stratum 15 over IPv6; stratum 16. -/
theorem witness_ReferenceIdentifierAsciiHexAndNa :
    hostRdReg Config.params (packet [0x24, 0x01] 48) 31 = 0 ∧
      hostRdReg Config.params { packet [0x24, 0x0F] 48 with cfg := 1 } 31 = 2 ∧
      hostRdReg Config.params (packet [0x24, 0x10] 48) 31 = 3 := by decide

theorem witness_ReferenceIdentifierDottedQuad :
    hostRdReg Config.params (packet [0x24, 0x02] 48) 31 = 1 ∧
      hostRdReg Config.params (packet [0x24, 0x0F] 48) 31 = 1 := by decide

theorem witness_ViewsReadTheHeaderAndSrcIpvOnly :
    let b : Block := { packet replyHeader 48 with cfg := 1 }
    let b' : Block := { b with inBuf := b.inBuf.write 48 0xFF, inLen := 0, arg0 := 5 }
    (∀ i < 48, b.inBuf.read i = b'.inBuf.read i) ∧ b.cfg.toNat % 2 = b'.cfg.toNat % 2 ∧
      b.inBuf ≠ b'.inBuf := by decide

theorem witness_RegisterReadReturnsTheRegister :
    (hostAt Block.reset (.rd 41)).stmt = some (.rd 41) ∧ 41 ≤ (41 : Index).toNat ∧
      16 ≤ (16 : Index).toNat ∧ (40 : Index).toNat ≤ 40 := by decide

theorem witness_RegisterWriteStoresOrIsIgnored :
    (hostAt Block.reset (.wr 0 0x06)).stmt = some (.wr 0 0x06) ∧ decode 0x06 = .ok .valid ∧
      (hostAt Block.reset (.wr 0 0x0A)).stmt = some (.wr 0 0x0A) ∧
      decode 0x0A = .error .reservedOpcode ∧ (hostAt Block.reset (.wr 1 5)).stmt = some (.wr 1 5) ∧ (1 : Index).toNat ≠ 0 := by decide

theorem witness_InboundOctetWriteReadsBack :
    (packet replyHeader 48).inBuf.wf = true ∧
      (hostAt (packet replyHeader 48) (.wrb 67 1)).stmt = some (.wrb 67 1) ∧
      (hostAt (packet replyHeader 48) (.wrb 68 1)).stmt = some (.wrb 68 1) ∧ 68 ≤ (68 : Index).toNat := by
  decide

theorem witness_OctetReadsReturnTheOctet :
    (hostAt Block.reset (.rdbIn 67)).stmt = some (.rdbIn 67) ∧
      (hostAt Block.reset (.rdbOut 48)).stmt = some (.rdbOut 48) ∧
      (hostAt Block.reset (.rdbTxt 15)).stmt = some (.rdbTxt 15) := by decide

theorem witness_HostKeepsTheValueRead :
    (hostAt Block.reset (.rd 1)).stmt = some (.rd 1) ∧
      (hostAt Block.reset (.rdbIn 0)).stmt = some (.rdbIn 0) ∧
      (hostAt Block.reset (.rdbOut 0)).stmt = some (.rdbOut 0) ∧
      (hostAt Block.reset (.rdbTxt 0)).stmt = some (.rdbTxt 0) := by decide

theorem witness_OutChangesOnlyAtBuildreqOrReset :
    ∃ s t : State, step s = .next t ∧ t.block.outBuf ≠ s.block.outBuf :=
  ⟨hostAt Block.reset (.wr 0 0x01), _, rfl, by decide⟩

theorem witness_OnlyCommandsAndResetWriteResults :
    ∃ s t : State, step s = .next t ∧ s.stmt ≠ some .reset ∧ ∀ w, ¬s.WritesCmd w :=
  ⟨hostAt Block.reset (.wr 4 5), _, rfl, by decide, by
    rintro w (h | ⟨h, -⟩)
    · exact absurd h (by simp [hostAt, State.stmt])
    · exact absurd h (by decide)⟩

theorem witness_HostResetClearsTheBlock :
    (hostAt (packet replyHeader 48) .reset).stmt = some .reset := by decide

theorem witness_HostBranchesLeaveTheBlock :
    (hostAt { Block.reset with status := 0x50001 } (.jerr 9)).stmt = some (.jerr 9) ∧
      (0x50001#64).toNat % 256 ≠ 0 ∧ (hostAt Block.reset (.jmp 9)).stmt = some (.jmp 9) ∧
      (hostAt Block.reset .halt).stmt = some .halt := by decide

theorem witness_MovCopiesARegisterIntoAnArgument :
    ∃ s s' t : State, s.stmt = some (.rd 8) ∧
      s.host.program[s.host.pos + 1]? = some (.wrRead (Script.argIndex 3)) ∧
      step s = .next s' ∧ step s' = .next t :=
  ⟨{ block := { Block.reset with res0 := 5 },
     host := { program := Script.mov 3 8, pos := 0, readVal := 0 } }, _, _, rfl, rfl, rfl, rfl⟩

theorem witness_EveryStepHasANextState : State.reset.stmt = none := by decide

theorem witness_EveryStepKeepsTheInvariant : ∃ s t : State, s.Inv ∧ step s = .next t :=
  ⟨_, _, inv_of_outBuf [(0, 0x23)] rfl rfl, rfl⟩

end Sys2Proof.Tests
end

/-! The integers and fields of 00_scope.md: RNI is the nearest integer, ties to even (R18), and a
multi-octet field reads its first octet as the most significant (R15). -/

namespace Sys2Proof.Proofs.Scope

open Sys2Proof.Machine

/-! ### RNI (R18) -/

/-- Both conditions of R18 on `k` for the rational `a / b`, cleared of the denominator `2 * b`. -/
theorem isNearestInt_div_iff {k a : Int} {b : Nat} (hb : 0 < b) :
    IsNearestInt k ((a : ℚ) / b) ↔
      |2 * (k * b - a)| ≤ b ∧ (|2 * (k * b - a)| = b → k % 2 = 0) := by
  have hb' : (0 : ℚ) < b := Nat.cast_pos.mpr hb
  have hdist : |(k : ℚ) - a / b| = ((|2 * (k * b - a)| : Int) : ℚ) / b / 2 := by
    have hdiff : (k : ℚ) - a / b = 2 * (k * b - a) / (b * 2) := by field_simp
    rw [hdiff, abs_div, abs_of_pos (mul_pos hb' two_pos), div_div]
    push_cast
    rfl
  have hle : |(k : ℚ) - a / b| ≤ 1 / 2 ↔ |2 * (k * b - a)| ≤ b := by
    rw [hdist, div_le_div_iff_of_pos_right two_pos, div_le_one hb']
    exact_mod_cast Iff.rfl
  have heq : |(k : ℚ) - a / b| = 1 / 2 ↔ |2 * (k * b - a)| = b := by
    rw [hdist, div_left_inj' two_ne_zero, div_eq_one_iff_eq hb'.ne']
    exact_mod_cast Iff.rfl
  rw [← hle, ← heq]
  exact ⟨fun h => ⟨h.nearest, h.even⟩, fun h => ⟨h.1, h.2⟩⟩

/-- The two answers of `rni`: the quotient when the remainder is below half the divisor, its
successor when above; at exactly half, the even one of the two. -/
theorem rni_cases (a : Int) (b : Nat) :
    (rni a b = a / b ∧ (2 * (a % b) < b ∨ 2 * (a % b) = b ∧ rni a b % 2 = 0)) ∨
    (rni a b = a / b + 1 ∧ (b < 2 * (a % b) ∨ 2 * (a % b) = b ∧ rni a b % 2 = 0)) := by
  by_cases h : 2 * (a % b) < b ∨ (2 * (a % b) = b ∧ a / b % 2 = 0)
  · have hk : rni a b = a / b := if_pos h
    exact .inl ⟨hk, by rwa [hk]⟩
  · have hk : rni a b = a / b + 1 := if_neg h
    exact .inr ⟨hk, by omega⟩

/-- Settles O12, by the two answers of `rni`: its error is `-r / b` or `(b - r) / b`, with `r` the
remainder. -/
theorem integerRoundingIsToNearestEven : Obligations.IntegerRoundingIsToNearestEven := by
  intro a b hb
  rw [isNearestInt_div_iff hb]
  have hdiv : (b : Int) * (a / b) + a % b = a := Int.mul_ediv_add_emod a b
  have hr : 0 ≤ a % b := Int.emod_nonneg a (by omega)
  have hrb : a % b < b := Int.emod_lt_of_pos a (by omega)
  obtain ⟨hk, hhalf⟩ | ⟨hk, hhalf⟩ := rni_cases a b
  · have herr : rni a b * b - a = -(a % b) := by rw [hk]; linarith
    rw [herr, mul_neg, abs_neg, abs_of_nonneg (by omega)]
    omega
  · have herr : rni a b * b - a = b - a % b := by rw [hk]; linarith
    rw [herr, abs_of_nonneg (by omega)]
    omega

/-! ### Multi-octet fields (R15) -/

/-- The left operand of an append holds the more significant bits. -/
theorem toNat_append_eq_add {m n : Nat} (x : BitVec m) (y : BitVec n) :
    (x ++ y).toNat = x.toNat * 2 ^ n + y.toNat := by
  rw [BitVec.toNat_append, ← Nat.shiftLeft_add_eq_or_of_lt y.isLt, Nat.shiftLeft_eq]

theorem be32_toNat (m : Memory) (o : Nat) :
    (be32 m o).toNat = (m.read o).toNat * 2 ^ 24 + (m.read (o + 1)).toNat * 2 ^ 16 +
      (m.read (o + 2)).toNat * 2 ^ 8 + (m.read (o + 3)).toNat := by
  simp only [be32, toNat_append_eq_add]
  omega

theorem be64_toNat (m : Memory) (o : Nat) :
    (be64 m o).toNat = (be32 m o).toNat * 2 ^ 32 + (be32 m (o + 4)).toNat :=
  toNat_append_eq_add _ _

/-- Settles O22, by the weight of each octet in the append that makes a field. -/
theorem fieldsAreBigEndian : Obligations.FieldsAreBigEndian :=
  fun m o => ⟨be32_toNat m o, be64_toNat m o⟩

end Sys2Proof.Proofs.Scope

/-! The state of 10_state.md: no command reads a flag and each rewrites all of them (R46), and the views
are functions of IN[0..47] and CFG.SRC_IPV (R47). -/

namespace Sys2Proof.Proofs.BlockState

open Sys2Proof.Machine

/-! ### STATUS is written and never read by a command (R46) -/

/-- A command's result is the same whatever STATUS held: its operands and its checks are in other
fields, and each of its ends writes STATUS as a whole. -/
theorem result_setStatus (i : Instr) (b : Block) (v : Word) :
    Instr.result i (b.setStatus v) = Instr.result i b := by
  cases i with
  -- the commands that always complete
  | buildreq | encts | dects | rtdelay => rfl
  -- the commands with a check, on IN, IN_LEN or the arguments
  | dectsb _ | dechdr | valid | clkoff | corrclk => rfl

/-- An illegal word's report writes STATUS as a whole. -/
theorem raiseIllegal_setStatus (w : Word) (b : Block) (v : Word) :
    raiseIllegal w (b.setStatus v) = raiseIllegal w b := rfl

theorem exec_setStatus (i : Instr) (s : State) (v : Word) :
    exec i (s.setBlock (s.block.setStatus v)) = exec i s := by
  rw [exec_eq, exec_eq, State.setBlock_block, result_setStatus, State.setBlock_setBlock]

/-- A word written to CMD is a command or illegal; both ends write STATUS as a whole. -/
theorem command_setStatus (w : Word) (s : State) (v : Word) :
    command w (s.setBlock (s.block.setStatus v)) = command w s := by
  cases hd : decode w with
  | ok i => rw [command_ok hd, command_ok hd, exec_setStatus]
  | error e =>
    rw [command_error hd, command_error hd, State.setBlock_block, raiseIllegal_setStatus,
      State.setBlock_setBlock]

/-- A step that writes CMD issues the word as a command, with the host moved on. -/
theorem step_of_writesCmd {s : State} {w : Word} (h : s.WritesCmd w) :
    step s = command w s.advance := by
  obtain hs | ⟨hs, rfl⟩ := h
  · exact step_some hs
  · exact step_some hs

/-- Settles O7, by `exec_setStatus` for a command and `command_setStatus` for the word a step writes. -/
theorem noCommandReadsAFlag : Obligations.NoCommandReadsAFlag := by
  refine ⟨fun i s v => exec_setStatus i s v, fun s w v h => ?_⟩
  have h' : (s.setBlock (s.block.setStatus v)).WritesCmd w := h
  calc step (s.setBlock (s.block.setStatus v))
      = command w (s.setBlock (s.block.setStatus v)).advance := step_of_writesCmd h'
    _ = command w s.advance := command_setStatus w s.advance v
    _ = step s := (step_of_writesCmd h).symm

/-! ### Which octets the views read (R47) -/

/-- The two buffers hold the same packet header. -/
def SameHeader (m m' : Memory) : Prop := ∀ i < 48, m.read i = m'.read i

section
variable {m m' : Memory} (h : SameHeader m m')
include h

theorem SameHeader.read_eq {i : Nat} (hi : i < 48) : m.read i = m'.read i := h i hi

theorem SameHeader.be32_eq {o : Nat} (ho : o + 4 ≤ 48) : be32 m o = be32 m' o := by
  simp (disch := omega) only [be32, h.read_eq]

theorem SameHeader.be64_eq {o : Nat} (ho : o + 8 ≤ 48) : be64 m o = be64 m' o := by
  simp (disch := omega) only [be64, h.be32_eq]

theorem SameHeader.renderRefid_eq (ipv6 : Bool) : renderRefid m ipv6 = renderRefid m' ipv6 := by
  have hascii : renderAscii m = renderAscii m' := by
    refine List.map_congr_left fun j hj => h.read_eq ?_
    have := List.mem_range.1 hj
    omega
  have hipv4 : renderIpv4 m = renderIpv4 m' := by
    simp (disch := omega) only [renderIpv4, h.read_eq]
  have hhex : renderHex m = renderHex m' := by
    simp (disch := omega) only [renderHex, h.be32_eq]
  simp (disch := omega) only [renderRefid, h.read_eq, hascii, hipv4, hhex]

/-- A view reads the header and, if it is REFID_CLASS or REFID_LEN, SRC_IPV. -/
theorem SameHeader.viewValue_eq (p : Params) {ipv6 ipv6' : Bool} {v : View}
    (hv : v = .refidClass ∨ v = .refidLen → ipv6 = ipv6') :
    viewValue p m ipv6 v = viewValue p m' ipv6' v := by
  cases v with
  | refidClass =>
    rw [hv (.inl rfl)]
    simp (disch := omega) only [viewValue, h.read_eq]
  | refidLen =>
    rw [hv (.inr rfl)]
    simp only [viewValue, h.renderRefid_eq]
  | li | vn | mode | modeClass | stratum | stratumClass | poll | pollS | precision | precisionNs =>
    simp (disch := omega) only [viewValue, h.read_eq]
  | rootDelay | rootDelayMs | rootDisp | rootDispMs | refid =>
    simp (disch := omega) only [viewValue, h.be32_eq]
  | refRaw | t1Raw | t2Raw | t3Raw | refTs | t1 | t2 | t3 =>
    simp (disch := omega) only [viewValue, h.be64_eq]

end

/-- The indices 16 to 40 name the views, and the two that render the reference identifier are 31 and
32 (R31). -/
theorem ofIndex_view {n : Nat} (hlo : 16 ≤ n) (hhi : n ≤ 40) :
    ∃ v, Reg.ofIndex n = .view v ∧ (v = .refidClass → n = 31) ∧ (v = .refidLen → n = 32) := by
  interval_cases n <;> exact ⟨_, rfl, by decide, by decide⟩

/-- A host read of a view register returns the view's value. -/
theorem hostRdReg_view {r : Index} {v : View} (hr : Reg.ofIndex r.toNat = .view v) (p : Params)
    (b : Block) : hostRdReg p b r = viewValue p b.inBuf (srcIpv6 b) v := by
  rw [hostRdReg, hr]
  rfl

/-- SRC_IPV is bit 0 of CFG (R34). -/
theorem srcIpv6_eq (b : Block) : srcIpv6 b = decide (b.cfg.toNat % 2 = 1) :=
  Nat.testBit_zero b.cfg.toNat

/-- A view register reads the same in two blocks with one header, and with one SRC_IPV where the
register is REFID_CLASS or REFID_LEN. -/
theorem SameHeader.hostRdReg_eq {b b' : Block} (h : SameHeader b.inBuf b'.inBuf) (p : Params)
    {r : Index} (hlo : 16 ≤ r.toNat) (hhi : r.toNat ≤ 40)
    (hipv : r = 31 ∨ r = 32 → srcIpv6 b = srcIpv6 b') : hostRdReg p b r = hostRdReg p b' r := by
  obtain ⟨v, hr, hclass, hlen⟩ := ofIndex_view hlo hhi
  rw [hostRdReg_view hr, hostRdReg_view hr]
  exact h.viewValue_eq p fun hv => hipv <|
    hv.imp (BitVec.eq_of_toNat_eq <| hclass ·) (BitVec.eq_of_toNat_eq <| hlen ·)

theorem SameHeader.hostRdTxt_eq {b b' : Block} (h : SameHeader b.inBuf b'.inBuf)
    (hipv : srcIpv6 b = srcIpv6 b') (i : Index) : hostRdTxt b i = hostRdTxt b' i := by
  simp only [hostRdTxt, txtOctet, h.renderRefid_eq, hipv]

/-- Settles O44, by the octets each view and the rendering read. -/
theorem viewsReadTheHeaderAndSrcIpvOnly : Obligations.ViewsReadTheHeaderAndSrcIpvOnly := by
  intro p b b' (h : SameHeader b.inBuf b'.inBuf)
  refine ⟨fun r hlo hhi h31 h32 => ?_, fun hcfg => ?_⟩
  · exact h.hostRdReg_eq p hlo hhi fun hr => (hr.elim h31 h32).elim
  · have hipv : srcIpv6 b = srcIpv6 b' := by rw [srcIpv6_eq, srcIpv6_eq, hcfg]
    exact ⟨h.hostRdReg_eq p (by decide) (by decide) fun _ => hipv,
      h.hostRdReg_eq p (by decide) (by decide) fun _ => hipv, h.hostRdTxt_eq hipv⟩

end Sys2Proof.Proofs.BlockState

/-! The host's primitives of 20_memory.md: what a register or octet read returns (R81, R83, R85, R86),
that it changes no state of the block (R93), and what a write stores (R82, R84). -/

namespace Sys2Proof.Proofs.HostPort

open Sys2Proof.Machine Sys2Proof.Proofs.BlockState

/-! ### The registers the indices name (10_state.md R31, R39) -/

/-- No register has an index past the last view's. -/
theorem ofIndex_reserved {n : Nat} (h : 41 ≤ n) : Reg.ofIndex n = .reserved := by
  obtain ⟨k, rfl⟩ := Nat.exists_eq_add_of_le' h
  rfl

/-- Index 0 alone names CMD. -/
theorem ofIndex_ne_cmd {n : Nat} (h : n ≠ 0) : Reg.ofIndex n ≠ .cmd := by
  by_cases hn : n < 41
  · have hpos : 0 < n := Nat.pos_of_ne_zero h
    interval_cases n <;> exact Reg.noConfusion
  · rw [ofIndex_reserved (by omega)]
    exact Reg.noConfusion

/-! ### Reads (R81, R83, R85, R86, R93) -/

/-- A register read is a read of the register its index names. -/
theorem hostRdReg_of_toNat {p : Params} {b : Block} {r : Index} {n : Nat} (h : r.toNat = n) :
    hostRdReg p b r = b.readReg p (Reg.ofIndex n) := by
  rw [hostRdReg, h]

/-- CMD, the reserved indices and every index past the views read 0. -/
theorem hostRdReg_eq_zero {p : Params} {b : Block} {r : Index}
    (h : r.toNat = 0 ∨ r.toNat = 14 ∨ r.toNat = 15 ∨ 41 ≤ r.toNat) : hostRdReg p b r = 0 := by
  obtain h | h | h | h := h
  · exact hostRdReg_of_toNat h
  · exact hostRdReg_of_toNat h
  · exact hostRdReg_of_toNat h
  · rw [hostRdReg, ofIndex_reserved h]
    rfl

/-- A step that is a host read leaves the block as it is (R93). -/
theorem step_of_hostRead {s : State} {v : Word} (h : step s = hostRead v s) :
    ∃ t, step s = .next t ∧ t.block = s.block := ⟨_, h, rfl⟩

/-- Settles O46, by the register each index names. -/
theorem registerReadReturnsTheRegister : Obligations.RegisterReadReturnsTheRegister := by
  intro s r
  refine ⟨hostRdReg_eq_zero, hostRdReg_of_toNat, hostRdReg_of_toNat, hostRdReg_of_toNat,
    hostRdReg_of_toNat, hostRdReg_of_toNat, hostRdReg_of_toNat, hostRdReg_of_toNat,
    hostRdReg_of_toNat, hostRdReg_of_toNat, hostRdReg_of_toNat, hostRdReg_of_toNat,
    hostRdReg_of_toNat, hostRdReg_of_toNat, fun hlo hhi => ?_,
    fun hs => step_of_hostRead (step_some hs)⟩
  obtain ⟨view, hr, -, -⟩ := ofIndex_view hlo hhi
  exact ⟨view, hr, by rw [hostRdReg_view hr, srcIpv6_eq]⟩

/-- TXT is the reference identifier as SRC_IPV says to render it, in 16 octets (R86). -/
theorem hostRdTxt_eq (b : Block) (i : Index) :
    hostRdTxt b i =
      if i.toNat < 16 then
        (renderRefid b.inBuf (decide (b.cfg.toNat % 2 = 1))).getD i.toNat 0
      else 0 := by
  rw [hostRdTxt, srcIpv6_eq]
  rfl

/-- Settles O49, by the definition of each read and `step_of_hostRead`. -/
theorem octetReadsReturnTheOctet : Obligations.OctetReadsReturnTheOctet := by
  refine fun s i => ⟨rfl, rfl, hostRdTxt_eq s.block i, ?_⟩
  rintro (hs | hs | hs)
  · exact step_of_hostRead (step_some hs)
  · exact step_of_hostRead (step_some hs)
  · exact step_of_hostRead (step_some hs)

/-! ### Register writes (R82) -/

/-- CFG keeps bit 0 of the word written. -/
theorem setCfg_eq (b : Block) (v : Word) :
    b.setCfg v = { b with cfg := BitVec.ofNat 64 (v.toNat % 2) } := by
  have hbit : v &&& 1 = BitVec.ofNat 64 (v.toNat % 2) := by
    apply BitVec.eq_of_toNat_eq
    rw [BitVec.toNat_and, BitVec.toNat_ofNat]
    show v.toNat &&& 1 = _
    rw [Nat.and_one_is_mod]
    omega
  rw [← hbit]
  rfl

/-- STATUS, the results, the error registers, the views and the reserved indices ignore a write. -/
theorem writeReg_ofIndex_ignored (b : Block) (v : Word) {n : Nat} (h : n < 2 ∨ 8 ≤ n) :
    b.writeReg v (Reg.ofIndex n) = b := by
  obtain h | ⟨hlo, hhi⟩ | ⟨hlo, hhi⟩ | h :
      n < 2 ∨ (8 ≤ n ∧ n < 16) ∨ (16 ≤ n ∧ n ≤ 40) ∨ 41 ≤ n := by omega
  · interval_cases n <;> rfl
  · interval_cases n <;> rfl
  · obtain ⟨view, hr, -, -⟩ := ofIndex_view hlo hhi
    rw [hr]
    rfl
  · rw [ofIndex_reserved h]
    rfl

/-- What a register write stores, by the index; CMD stores nothing. -/
theorem writeReg_ofIndex (b : Block) (v : Word) (n : Nat) :
    b.writeReg v (Reg.ofIndex n) =
      if n = 2 then { b with cfg := BitVec.ofNat 64 (v.toNat % 2) }
      else if n = 3 then { b with inLen := v }
      else if n = 4 then { b with arg0 := v }
      else if n = 5 then { b with arg1 := v }
      else if n = 6 then { b with arg2 := v }
      else if n = 7 then { b with arg3 := v }
      else b := by
  rw [← setCfg_eq]
  by_cases h : n < 8
  · interval_cases n <;> rfl
  · rw [writeReg_ofIndex_ignored b v (by omega)]
    repeat rw [if_neg (by omega)]

/-- A write to any register but CMD stores, or is ignored. -/
theorem hostWrReg_of_ne_zero {r : Index} (hr : r.toNat ≠ 0) (v : Word) (s : State) :
    hostWrReg r v s = .next (s.setBlock (s.block.writeReg v (Reg.ofIndex r.toNat))) := by
  obtain ⟨b, hb, hw⟩ := hostWrReg_next r v s
  cases hw with
  | stored => exact hb
  | ran hcmd => exact absurd hcmd (ofIndex_ne_cmd hr)
  | illegal hcmd => exact absurd hcmd (ofIndex_ne_cmd hr)

/-- A statement that writes index 0 issues the word as a command. -/
theorem step_of_wr_cmd {s : State} {r : Index} {v : Word} (hs : s.stmt = some (.wr r v))
    (hr : r.toNat = 0) : step s = command v s.advance := by
  have hr0 : r = 0 := BitVec.eq_of_toNat_eq hr
  exact step_of_writesCmd (.inl (hr0 ▸ hs))

/-- An illegal word leaves error code 8 and its low octet in STATUS, and the rest as it was
(60_exceptions.md R286). -/
theorem raiseIllegal_eq_ofNat (w : Word) (b : Block) :
    raiseIllegal w b = { b with status := BitVec.ofNat 64 (8 + 65536 * (w.toNat % 256)) } := by
  have hopc : (opcField w).toNat = w.toNat % 256 := by simp [opcField]
  have hstatus : statusWord .illegalCommand false false 0 (opcField w) =
      BitVec.ofNat 64 (8 + 65536 * (w.toNat % 256)) := by
    apply BitVec.eq_of_toNat_eq
    rw [statusWord_toNat, hopc, BitVec.toNat_ofNat]
    show 8 + 2 ^ 8 * 0 + 2 ^ 9 * 0 + 2 ^ 10 * 0 + 2 ^ 16 * (w.toNat % 256) = _
    omega
  rw [raiseIllegal_eq, hstatus]

/-- Settles O47: a CMD write by `command`, every other one by the register its index names. -/
theorem registerWriteStoresOrIsIgnored : Obligations.RegisterWriteStoresOrIsIgnored := by
  intro s r v hs
  refine ⟨fun hr i hi => ?_, fun hr e he => ?_, fun hr => ?_⟩
  · rw [step_of_wr_cmd hs hr, command_ok hi]
    rfl
  · rw [step_of_wr_cmd hs hr, command_error he, raiseIllegal_eq_ofNat]
    rfl
  · rw [← writeReg_ofIndex]
    exact (step_some hs).trans (hostWrReg_of_ne_zero hr v s.advance)

/-! ### Octet writes (R84) -/

section
variable (p : Params) (b : Block) (i : Index) (v : Byte)

/-- An octet write changes no field but IN. -/
theorem hostWrIn_frame : hostWrIn p b i v = { b with inBuf := (hostWrIn p b i v).inBuf } := by
  unfold hostWrIn
  split
  · rfl
  · rfl

/-- An octet write past the capacity is ignored. -/
theorem hostWrIn_of_le (h : p.pktInCap ≤ i.toNat) : hostWrIn p b i v = b :=
  if_neg (Nat.not_lt.2 h)

/-- An octet written inside the capacity reads back, and every other octet reads as before. -/
theorem hostRdIn_hostWrIn (hwf : b.inBuf.wf = true) (j : Index) :
    hostRdIn p (hostWrIn p b i v) j =
      if p.pktInCap ≤ j.toNat then 0 else if j = i then v else b.inBuf.read j.toNat := by
  unfold hostRdIn
  by_cases hj : p.pktInCap ≤ j.toNat
  · rw [if_neg (by omega), if_pos hj]
  rw [if_pos (by omega), if_neg hj]
  by_cases hi : p.pktInCap ≤ i.toNat
  · have hji : j ≠ i := fun h => hj (h ▸ hi)
    rw [hostWrIn_of_le p b i v hi, if_neg hji]
  · rw [hostWrIn, if_pos (by omega), Block.setIn_inBuf, Memory.read_write hwf]
    simp only [BitVec.toNat_inj]

end

/-- Settles O48, by `hostRdIn_hostWrIn` at the default capacity. -/
theorem inboundOctetWriteReadsBack : Obligations.InboundOctetWriteReadsBack :=
  fun s i v hwf hs =>
    ⟨_, step_some hs, hostWrIn_frame Config.params s.block i v,
      hostWrIn_of_le Config.params s.block i v, hostRdIn_hostWrIn Config.params s.block i v hwf⟩

end Sys2Proof.Proofs.HostPort

/-! The command word of 30_encoding.md: its fields as numbers (R110), which words decode to a command
and which are illegal (R111 to R115), and what a CMD write of either does. -/

namespace Sys2Proof.Proofs.Encoding

open Sys2Proof.Machine Sys2Proof.Proofs.BlockState Sys2Proof.Proofs.HostPort

/-! ### The fields of a command word (R110) -/

theorem opcField_toNat (w : Word) : (opcField w).toNat = w.toNat % 256 :=
  BitVec.extractLsb'_toNat 0 8 w

theorem imm8Field_toNat (w : Word) : (imm8Field w).toNat = w.toNat / 256 % 256 := by
  rw [imm8Field, BitVec.extractLsb'_toNat, Nat.shiftRight_eq_div_pow]

/-- RSV is everything above bit 15, so no modulus is left. -/
theorem rsvField_toNat (w : Word) : (rsvField w).toNat = w.toNat / 65536 := by
  have hw := w.isLt
  rw [rsvField, BitVec.extractLsb'_toNat, Nat.shiftRight_eq_div_pow]
  omega

theorem rsvField_eq_zero_iff (w : Word) : rsvField w = 0#48 ↔ w.toNat / 65536 = 0 := by
  rw [← BitVec.toNat_inj, rsvField_toNat, BitVec.toNat_zero]

theorem imm8Field_eq_zero_iff (w : Word) : imm8Field w = 0#8 ↔ w.toNat / 256 % 256 = 0 := by
  rw [← BitVec.toNat_inj, imm8Field_toNat, BitVec.toNat_zero]

theorem opcField_eq_ofNat_iff (w : Word) {n : Nat} (hn : n < 256) :
    opcField w = BitVec.ofNat 8 n ↔ w.toNat % 256 = n := by
  rw [← BitVec.toNat_inj, opcField_toNat, BitVec.toNat_ofNat, Nat.mod_eq_of_lt hn]

/-! ### The decoder (R111 to R115) -/

/-- The reserved codes 0x00 and 0x0A to 0xFF name no command (R115). -/
theorem operationOf_eq_none {opc : BitVec 8} (imm8 : BitVec 8)
    (h : opc.toNat = 0 ∨ 9 < opc.toNat) : operationOf opc imm8 = none := by
  unfold operationOf
  split
  case h_10 => rfl
  all_goals omega

/-- The checks left after RSV and OPC have passed: IMM8 is 0, but for DECTSB (R113). -/
theorem decode_of_operationOf {w : Word} {i : Instr} (hrsv : w.toNat / 65536 = 0)
    (hi : operationOf (opcField w) (imm8Field w) = some i) :
    decode w =
      if w.toNat % 256 ≠ 4 ∧ w.toNat / 256 % 256 ≠ 0 then .error .nonzeroImm8 else .ok i := by
  rw [decode, if_neg (not_not.2 ((rsvField_eq_zero_iff w).2 hrsv)), hi]
  simp only [ne_eq, imm8Field_eq_zero_iff, opcField_eq_ofNat_iff w (by decide : 4 < 256)]

/-- A word with RSV 0 and, unless OPC is DECTSB's, IMM8 0 decodes to the command R112 gives its OPC. -/
theorem decode_eq_ok {w : Word} {n : Nat} {i : Instr} (hrsv : w.toNat / 65536 = 0)
    (hopc : w.toNat % 256 = n) (himm : n = 4 ∨ w.toNat / 256 % 256 = 0)
    (hi : operationOf (BitVec.ofNat 8 n) (imm8Field w) = some i) : decode w = .ok i := by
  have hn : opcField w = BitVec.ofNat 8 n := (opcField_eq_ofNat_iff w (by omega)).2 hopc
  rw [decode_of_operationOf hrsv (hn ▸ hi), if_neg (by omega)]

/-- A word with RSV 0 and an OPC that names no command is illegal (R115). -/
theorem decode_of_operationOf_none {w : Word} (hrsv : w.toNat / 65536 = 0)
    (hi : operationOf (opcField w) (imm8Field w) = none) : decode w = .error .reservedOpcode := by
  rw [decode, if_neg (not_not.2 ((rsvField_eq_zero_iff w).2 hrsv)), hi]

/-- A word that fails a check of R111 is illegal; the first check it fails gives the reason. -/
theorem decode_eq_error {w : Word}
    (h : w.toNat / 65536 ≠ 0 ∨ w.toNat % 256 = 0 ∨ 9 < w.toNat % 256 ∨
      (w.toNat % 256 ≠ 4 ∧ w.toNat / 256 % 256 ≠ 0)) : ∃ e, decode w = .error e := by
  by_cases hrsv : w.toNat / 65536 = 0
  · cases hi : operationOf (opcField w) (imm8Field w) with
    | none => exact ⟨_, decode_of_operationOf_none hrsv hi⟩
    | some i =>
      have hopc : ¬(w.toNat % 256 = 0 ∨ 9 < w.toNat % 256) := by
        rw [← opcField_toNat]
        exact fun hres => Option.some_ne_none i (hi ▸ operationOf_eq_none _ hres)
      exact ⟨_, by rw [decode_of_operationOf hrsv hi, if_pos (by omega)]⟩
  · exact ⟨_, if_pos (mt (rsvField_eq_zero_iff w).1 hrsv)⟩

/-! ### A CMD write (R111, 60_exceptions.md R286) -/

section
variable {s : State} {w : Word} (hw : s.WritesCmd w)
include hw

/-- A CMD write of a word that decodes runs its command, with the host moved on. -/
theorem step_of_decode_ok {i : Instr} (hi : decode w = .ok i) : step s = exec i s.advance := by
  rw [step_of_writesCmd hw, command_ok hi]

/-- A CMD write of an illegal word writes STATUS alone. -/
theorem step_of_decode_error {e : Illegal} (he : decode w = .error e) :
    step s = .next (s.advance.setBlock
      { s.block with status := BitVec.ofNat 64 (8 + 65536 * (w.toNat % 256)) }) := by
  rw [step_of_writesCmd hw, command_error he, raiseIllegal_eq_ofNat, State.advance_block]

end

/-- Settles O4: `decode_eq_error` for an illegal word, and `decode_eq_ok` at each code of R112. -/
theorem cmdWriteRunsTheCommandOrIsIllegal : Obligations.CmdWriteRunsTheCommandOrIsIllegal := by
  intro s w hw
  refine ⟨fun hill => ?_, fun hrsv hopc => ?_, fun hrsv himm => ?_⟩
  · obtain ⟨e, he⟩ := decode_eq_error hill
    exact step_of_decode_error hw he
  · rw [← imm8Field_toNat]
    exact step_of_decode_ok hw (decode_eq_ok hrsv hopc (.inl rfl) rfl)
  · have runs {n : Nat} {i : Instr}
        (hi : operationOf (BitVec.ofNat 8 n) (imm8Field w) = some i) (hopc : w.toNat % 256 = n) :
        step s = exec i s.advance :=
      step_of_decode_ok hw (decode_eq_ok hrsv hopc (.inr himm) hi)
    exact ⟨runs rfl, runs rfl, runs rfl, runs rfl, runs rfl, runs rfl, runs rfl, runs rfl⟩

end Sys2Proof.Proofs.Encoding

/-! RN of 00_scope.md R17. A positive rational lies in one binade, or below the least normal one; in
units of the last place there, RN rounds it to an integer, and the pattern of RN stands for that
integer times the unit. -/

namespace Sys2Proof.Proofs.Rounding

open Sys2Proof.Machine Sys2Proof.Proofs.Scope

/-! ### The nearest integer -/

section
variable {k : Int} {x : ℚ} (h : IsNearestInt k x)
include h

/-- The nearest integer is at most any integer bound of the rational. -/
theorem le_of_isNearestInt {n : Int} (hx : x ≤ n) : k ≤ n := by
  have hk := (abs_le.1 h.nearest).2
  have hlt : (k : ℚ) < n + 1 := by linarith
  exact Int.lt_add_one_iff.1 (by exact_mod_cast hlt)

theorem ge_of_isNearestInt {n : Int} (hx : n ≤ x) : n ≤ k := by
  have hk := (abs_le.1 h.nearest).1
  have hlt : (n : ℚ) < k + 1 := by linarith
  exact Int.lt_add_one_iff.1 (by exact_mod_cast hlt)

/-- Any other integer is at least half a unit away. -/
theorem half_le_dist {j : Int} (hj : j ≠ k) : 1 / 2 ≤ |(j : ℚ) - x| := by
  have hone : (1 : ℚ) ≤ |(j : ℚ) - k| := by exact_mod_cast Int.one_le_abs (sub_ne_zero.2 hj)
  have htri : |(j : ℚ) - k| ≤ |(j : ℚ) - x| + |(k : ℚ) - x| := by
    rw [abs_sub_comm (k : ℚ) x]
    exact abs_sub_le _ _ _
  linarith [h.nearest]

theorem dist_le_dist (j : Int) : |(k : ℚ) - x| ≤ |(j : ℚ) - x| := by
  by_cases hj : j = k
  · rw [hj]
  · exact h.nearest.trans (half_le_dist h hj)

/-- Another integer as near makes a tie, and on a tie the nearest integer is even. -/
theorem even_of_dist_eq {j : Int} (hj : j ≠ k) (heq : |(k : ℚ) - x| = |(j : ℚ) - x|) : k % 2 = 0 :=
  h.even (le_antisymm h.nearest (heq ▸ half_le_dist h hj))

end

/-! ### The binade of a positive rational -/

/-- A power of two with an integer exponent as a quotient of natural powers. -/
theorem two_zpow_eq (k : ℤ) : (2 : ℚ) ^ k = 2 ^ k.toNat / 2 ^ (-k).toNat := by
  obtain ⟨n, rfl | rfl⟩ := k.eq_nat_or_neg
  · simp
  · simp

/-- The test `floorLog2` makes compares the quotient with a power of two. -/
theorem mul_two_pow_lt_iff (n : Nat) {d : Nat} (hd : 0 < d) (k : ℤ) :
    n * 2 ^ (-k).toNat < d * 2 ^ k.toNat ↔ (n : ℚ) / d < 2 ^ k := by
  have hd' : (0 : ℚ) < d := Nat.cast_pos.2 hd
  rw [two_zpow_eq, div_lt_div_iff₀ hd' (by positivity), mul_comm ((2 : ℚ) ^ k.toNat)]
  exact_mod_cast Iff.rfl

theorem floorLog2_bounds {n d : Nat} (hn : 0 < n) (hd : 0 < d) :
    (2 : ℚ) ^ floorLog2 n d ≤ n / d ∧ (n : ℚ) / d < 2 ^ (floorLog2 n d + 1) := by
  have hd' : (0 : ℚ) < d := Nat.cast_pos.2 hd
  have hnlo : (2 : ℚ) ^ n.log2 ≤ n := by exact_mod_cast Nat.log2_self_le hn.ne'
  have hnhi : (n : ℚ) < 2 ^ (n.log2 + 1) := by exact_mod_cast Nat.lt_log2_self
  have hdlo : (2 : ℚ) ^ d.log2 ≤ d := by exact_mod_cast Nat.log2_self_le hd.ne'
  have hdhi : (d : ℚ) < 2 ^ (d.log2 + 1) := by exact_mod_cast Nat.lt_log2_self
  have key (i j : ℕ) : (2 : ℚ) ^ ((i : ℤ) - j) = 2 ^ i / 2 ^ j := by
    rw [zpow_sub₀ two_ne_zero, zpow_natCast, zpow_natCast]
  have hlo : (2 : ℚ) ^ ((n.log2 : ℤ) - d.log2 - 1) ≤ n / d := by
    have e := key n.log2 (d.log2 + 1)
    push_cast at e
    rw [sub_sub, e]
    exact div_le_div₀ (Nat.cast_nonneg n) hnlo hd' hdhi.le
  have hhi : (n : ℚ) / d < 2 ^ ((n.log2 : ℤ) - d.log2 + 1) := by
    have e := key (n.log2 + 1) d.log2
    push_cast at e
    rw [sub_add_eq_add_sub, e]
    exact div_lt_div₀ hnhi hdlo (by positivity) (by positivity)
  unfold floorLog2
  simp only [mul_two_pow_lt_iff n hd]
  split
  · next h => exact ⟨hlo, by rwa [sub_add_cancel]⟩
  · next h => exact ⟨not_lt.1 h, hhi⟩

/-- `x` is below the end of the binade of exponent `e`, and in it unless `e` is the least exponent. -/
structure InBinade (x : ℚ) (e : ℤ) : Prop where
  min : -1022 ≤ e
  lower : e = -1022 ∨ 2 ^ e ≤ x
  upper : x < 2 ^ (e + 1)

/-- The exponent `magnitudePattern` takes. -/
theorem inBinade_max_floorLog2 {n d : Nat} (hn : 0 < n) (hd : 0 < d) :
    InBinade ((n : ℚ) / d) (max (floorLog2 n d) (-1022)) := by
  obtain ⟨hlo, hhi⟩ := floorLog2_bounds hn hd
  rcases le_total (floorLog2 n d) (-1022) with h | h
  · rw [max_eq_right h]
    exact ⟨le_rfl, .inl rfl, hhi.trans_le (zpow_le_zpow_right₀ one_le_two (by omega))⟩
  · rw [max_eq_left h]
    exact ⟨h, .inr hlo, hhi⟩

/-- The significand `magnitudePattern` rounds to is the integer nearest the quotient in units of
`2 ^ q`. -/
theorem isNearestInt_rni_units (n : Nat) {d : Nat} (hd : 0 < d) (q : ℤ) :
    IsNearestInt (rni (n * 2 ^ (-q).toNat : Nat) (d * 2 ^ q.toNat)) ((n : ℚ) / d / 2 ^ q) := by
  have h := integerRoundingIsToNearestEven (n * 2 ^ (-q).toNat : Nat) (d * 2 ^ q.toNat)
    (Nat.mul_pos hd (Nat.two_pow_pos _))
  rw [two_zpow_eq q, div_div_div_eq]
  simpa only [Int.cast_natCast, Int.cast_mul, Int.cast_pow, Int.cast_ofNat, Nat.cast_mul,
    Nat.cast_pow, Nat.cast_ofNat] using h

/-! ### No binary64 value is nearer -/

theorem two_pow_mul_two_zpow (n : ℕ) (c : ℤ) : (2 : ℚ) ^ n * 2 ^ c = 2 ^ (c + n) := by
  rw [← zpow_natCast, ← zpow_add₀ two_ne_zero, add_comm]

/-- The least significands of the binade of `e` and of the next, in units of the binade of `e`. -/
theorem two_pow_52_mul_unit (e : ℤ) : (2 : ℚ) ^ 52 * 2 ^ (e - 52) = 2 ^ e := by
  rw [two_pow_mul_two_zpow, Nat.cast_ofNat, sub_add_cancel]

theorem two_pow_53_mul_unit (e : ℤ) : (2 : ℚ) ^ 53 * 2 ^ (e - 52) = 2 ^ (e + 1) := by
  rw [pow_succ', mul_assoc, two_pow_52_mul_unit, ← zpow_one_add₀ two_ne_zero, add_comm]

/-- A binary64 value is an integer of at most 53 bits times a power of two of at least 2^−1074. -/
theorem exists_toRat_eq (y : F64) :
    ∃ s c : ℤ, |s| < 2 ^ 53 ∧ -1074 ≤ c ∧ F64.toRat y = s * 2 ^ c := by
  have hs : (F64.significand y : ℤ) < 2 ^ 53 := by exact_mod_cast F64.significand_lt y
  have hc := F64.scale_pos y
  refine ⟨(if F64.negative y then -1 else 1) * F64.significand y, F64.scale y - 1075, ?_, by omega, ?_⟩
  · split
    · rwa [neg_one_mul, abs_neg, Nat.abs_cast]
    · rwa [one_mul, Nat.abs_cast]
  · rw [F64.toRat]
    push_cast
    rfl

/-- A distance in units of `u`. -/
theorem abs_mul_unit_sub {u : ℚ} (hu : 0 < u) (j x : ℚ) : |j * u - x| = |j - x / u| * u := by
  rw [← abs_of_pos hu, ← abs_mul, abs_of_pos hu, sub_mul, div_mul_cancel₀ _ hu.ne']

section
variable {x : ℚ} {e k : ℤ} (hx : InBinade x e) (hk : IsNearestInt k (x / 2 ^ (e - 52)))
include hx hk

/-- The significand has at most 53 bits or is 2^53. -/
theorem significand_le : k ≤ 2 ^ 53 := by
  refine le_of_isNearestInt hk ?_
  rw [div_le_iff₀ (by positivity), Int.cast_pow, Int.cast_ofNat, two_pow_53_mul_unit]
  exact hx.upper.le

/-- In a binade above the least the significand has its hidden bit. -/
theorem le_significand (he : e ≠ -1022) : 2 ^ 52 ≤ k := by
  refine ge_of_isNearestInt hk ?_
  rw [le_div_iff₀ (by positivity), Int.cast_pow, Int.cast_ofNat, two_pow_52_mul_unit]
  exact hx.lower.resolve_left he

/-- A value of a lower binade is farther from `x` than the least value of `x`'s own binade. -/
theorem dist_lt_dist_of_lt {s c : ℤ} (hs : |s| < 2 ^ 53) (hmin : -1074 ≤ c) (hc : c < e - 52) :
    |(k : ℚ) * 2 ^ (e - 52) - x| < |(s : ℚ) * 2 ^ c - x| := by
  have hu : (0 : ℚ) < 2 ^ (e - 52) := by positivity
  have hlo : (2 : ℚ) ^ e ≤ x := hx.lower.resolve_left (by omega)
  have hbelow : (s : ℚ) * 2 ^ c < 2 ^ e := by
    calc (s : ℚ) * 2 ^ c < 2 ^ 53 * 2 ^ c := by
          have hs' : (s : ℚ) < 2 ^ 53 := by exact_mod_cast (abs_lt.1 hs).2
          exact mul_lt_mul_of_pos_right hs' (by positivity)
      _ = 2 ^ (c + 53) := by rw [two_pow_mul_two_zpow]; norm_num
      _ ≤ 2 ^ e := zpow_le_zpow_right₀ one_le_two (by omega)
  have hleast : |(k : ℚ) * 2 ^ (e - 52) - x| ≤ |(2 : ℚ) ^ e - x| := by
    have h := mul_le_mul_of_nonneg_right (dist_le_dist hk (2 ^ 52)) hu.le
    rwa [← abs_mul_unit_sub hu, ← abs_mul_unit_sub hu, Int.cast_pow, Int.cast_ofNat,
      two_pow_52_mul_unit] at h
  refine hleast.trans_lt ?_
  rw [abs_sub_comm, abs_sub_comm _ x, abs_of_nonneg (by linarith), abs_of_nonneg (by linarith)]
  linarith

/-- The rounded value is as near as any other integer of at most 53 bits times a power of two, and as
near as another only if its significand is even. -/
theorem dist_le_dist_and_even {s c : ℤ} (hs : |s| < 2 ^ 53) (hmin : -1074 ≤ c) :
    |(k : ℚ) * 2 ^ (e - 52) - x| ≤ |(s : ℚ) * 2 ^ c - x| ∧
      (|(k : ℚ) * 2 ^ (e - 52) - x| = |(s : ℚ) * 2 ^ c - x| →
        (s : ℚ) * 2 ^ c = k * 2 ^ (e - 52) ∨ k % 2 = 0) := by
  rcases lt_or_ge c (e - 52) with hc | hc
  · have hlt := dist_lt_dist_of_lt hx hk hs hmin hc
    exact ⟨hlt.le, fun heq => absurd heq hlt.ne⟩
  -- in `x`'s own binade or a higher one the value is a whole number of units
  obtain ⟨j, hj⟩ : ∃ j : ℤ, (s : ℚ) * 2 ^ c = j * 2 ^ (e - 52) := by
    obtain ⟨n, hn⟩ := Int.eq_ofNat_of_zero_le (sub_nonneg.2 hc)
    refine ⟨s * 2 ^ n, ?_⟩
    rw [Int.cast_mul, Int.cast_pow, Int.cast_ofNat, mul_assoc, two_pow_mul_two_zpow]
    congr 2
    omega
  have hu : (0 : ℚ) < 2 ^ (e - 52) := by positivity
  rw [hj, abs_mul_unit_sub hu, abs_mul_unit_sub hu]
  refine ⟨mul_le_mul_of_nonneg_right (dist_le_dist hk j) hu.le, fun heq => ?_⟩
  by_cases hjk : j = k
  · exact .inl (by rw [hjk])
  · exact .inr (even_of_dist_eq hk hjk (mul_right_cancel₀ hu.ne' heq))

end

/-! ### The pattern of a rounded value -/

/-- The pattern of a sign and a magnitude. -/
def signedPattern (neg : Bool) (m : Nat) : F64 := BitVec.ofNat 64 ((if neg then 2 ^ 63 else 0) + m)

/-- A nonzero rational is rounded by its sign and its magnitude. -/
theorem rn_eq_signedPattern {a : Int} (ha : a ≠ 0) (b : Nat) :
    rn a b = signedPattern (decide (a < 0)) (magnitudePattern a.natAbs b) := by
  rw [rn, if_neg ha, signedPattern]
  simp only [decide_eq_true_eq]

section
variable (neg : Bool) {m : Nat} (hm : m < 2 ^ 63)
include hm

theorem toNat_signedPattern : (signedPattern neg m).toNat = (if neg then 2 ^ 63 else 0) + m := by
  rw [signedPattern, BitVec.toNat_ofNat]
  split <;> omega

theorem negative_signedPattern : F64.negative (signedPattern neg m) = neg := by
  rw [F64.negative, BitVec.getLsbD, Nat.testBit_eq_decide_div_mod_eq, toNat_signedPattern neg hm]
  cases neg <;> simp <;> omega

theorem exponentField_signedPattern : F64.exponentField (signedPattern neg m) = m / 2 ^ 52 := by
  rw [F64.exponentField, BitVec.extractLsb'_toNat, Nat.shiftRight_eq_div_pow,
    toNat_signedPattern neg hm]
  split <;> omega

theorem fractionField_signedPattern : F64.fractionField (signedPattern neg m) = m % 2 ^ 52 := by
  rw [F64.fractionField, BitVec.extractLsb'_toNat, Nat.shiftRight_eq_div_pow,
    toNat_signedPattern neg hm]
  split <;> omega

end

/-- The magnitude with exponent step `E` and significand `k`: where `k` reaches 2^53, the carry into
the exponent leaves the same value. -/
theorem fields_of_magnitude (neg : Bool) {E k : Nat} (hE : E < 2046) (hk : k ≤ 2 ^ 53)
    (hnorm : E ≠ 0 → 2 ^ 52 ≤ k) :
    let r := signedPattern neg (E * 2 ^ 52 + k)
    F64.negative r = neg ∧
    (F64.scale r = E + 1 ∧ F64.significand r = k ∨
      F64.scale r = E + 2 ∧ F64.significand r = 2 ^ 52 ∧ k = 2 ^ 53) := by
  have hm : E * 2 ^ 52 + k < 2 ^ 63 := by omega
  refine ⟨negative_signedPattern neg hm, ?_⟩
  rw [F64.scale, F64.significand, exponentField_signedPattern neg hm,
    fractionField_signedPattern neg hm]
  obtain h | h | h : k < 2 ^ 52 ∨ 2 ^ 52 ≤ k ∧ k < 2 ^ 53 ∨ k = 2 ^ 53 := by omega
  · obtain rfl : E = 0 := by omega
    rw [if_pos (by omega)]
    omega
  · rw [if_neg (by omega)]
    omega
  · rw [if_neg (by omega)]
    omega

theorem finite_signedPattern (neg : Bool) {m : Nat} (hm : m < infPattern) :
    F64.finite (signedPattern neg m) = true := by
  have hinf : infPattern = 2047 * 2 ^ 52 := rfl
  rw [F64.finite, exponentField_signedPattern neg (by omega), decide_eq_true_eq]
  omega

/-- The pattern with exponent step `E` and significand `k` stands for `k` units of that step. -/
theorem toRat_magnitude (neg : Bool) {E k : Nat} (hE : E < 2046) (hk : k ≤ 2 ^ 53)
    (hnorm : E ≠ 0 → 2 ^ 52 ≤ k) :
    F64.toRat (signedPattern neg (E * 2 ^ 52 + k)) =
      (if neg then -1 else 1) * (k * 2 ^ ((E : ℤ) - 1074)) := by
  obtain ⟨hneg, ⟨hscale, hsig⟩ | ⟨hscale, hsig, rfl⟩⟩ := fields_of_magnitude neg hE hk hnorm
  · rw [F64.toRat, hneg, hscale, hsig, mul_assoc]
    congr 3
    push_cast
    ring
  · rw [F64.toRat, hneg, hscale, hsig, mul_assoc]
    congr 1
    rw [Nat.cast_pow, Nat.cast_pow, Nat.cast_ofNat, two_pow_mul_two_zpow, two_pow_mul_two_zpow]
    congr 1
    push_cast
    ring

/-- What `magnitudePattern` computes: the exponent of the quotient's binade and the integer nearest the
quotient in units of that binade. -/
theorem magnitudePattern_eq {n d : Nat} (hn : 0 < n) (hd : 0 < d) :
    ∃ e k : ℤ, InBinade ((n : ℚ) / d) e ∧ IsNearestInt k ((n : ℚ) / d / 2 ^ (e - 52)) ∧
      magnitudePattern n d = min ((e + 1022).toNat * 2 ^ 52 + k.toNat) infPattern :=
  ⟨_, _, inBinade_max_floorLog2 hn hd, isNearestInt_rni_units n hd _, rfl⟩

/-- The unit of the last binade. -/
theorem two_zpow_971 : (2 : ℚ) ^ (971 : ℤ) = 2 ^ 970 * 2 := by
  rw [← zpow_ofNat (2 : ℚ) 970]
  exact zpow_add_one₀ two_ne_zero 970

/-- A rational below the midpoint past the largest finite value has an exponent of at most 1023, and in
the last binade does not round up to 2^53. -/
theorem no_overflow {x : ℚ} {e k : ℤ} (hx : InBinade x e)
    (hk : IsNearestInt k (x / 2 ^ (e - 52))) (hlt : x < 2 ^ 1024 - 2 ^ 970) :
    e ≤ 1023 ∧ (e = 1023 → k < 2 ^ 53) := by
  have hu : (0 : ℚ) < 2 ^ 970 := by positivity
  have hend : (2 : ℚ) ^ 1024 = 2 ^ 970 * 2 ^ 54 := pow_add 2 970 54
  constructor
  · obtain rfl | hlo := hx.lower
    · decide
    · have hpow : (2 : ℚ) ^ (1024 : ℤ) = 2 ^ 1024 := rfl
      have h : (2 : ℚ) ^ e < 2 ^ (1024 : ℤ) := by
        rw [hpow]
        exact hlo.trans_lt (hlt.trans (sub_lt_self _ hu))
      exact Int.lt_add_one_iff.1 ((zpow_lt_zpow_iff_right₀ one_lt_two).1 h)
  · rintro rfl
    have hunit : (2 : ℚ) ^ ((1023 : ℤ) - 52) = 2 ^ 970 * 2 := two_zpow_971
    have hX : x / 2 ^ ((1023 : ℤ) - 52) < 2 ^ 53 - 1 / 2 := by
      rw [hunit, div_lt_iff₀ (by positivity)]
      refine hlt.trans_eq ?_
      rw [hend]
      generalize (2 : ℚ) ^ 970 = u
      ring
    have hnear := (abs_le.1 hk.nearest).2
    have hk53 : (k : ℚ) < 2 ^ 53 := by linarith
    exact_mod_cast hk53

/-- RN of a nonzero rational whose rounding is finite: its magnitude is the nearest integer number of
units of its binade, and the significand is even when that integer is. -/
theorem rn_spec {a : ℤ} {b : Nat} (ha : a ≠ 0) (hb : 0 < b)
    (hlt : |(a : ℚ) / b| < 2 ^ 1024 - 2 ^ 970) :
    ∃ e k : ℤ, InBinade |(a : ℚ) / b| e ∧ IsNearestInt k (|(a : ℚ) / b| / 2 ^ (e - 52)) ∧
      F64.finite (rn a b) = true ∧
      F64.toRat (rn a b) = a.sign * (k * 2 ^ (e - 52)) ∧
      (k % 2 = 0 → F64.significand (rn a b) % 2 = 0) := by
  have habs : |(a : ℚ) / b| = (a.natAbs : ℚ) / b := by
    rw [abs_div, Nat.abs_cast, Nat.cast_natAbs, Int.cast_abs]
  rw [habs] at hlt ⊢
  obtain ⟨e, k, hx, hk, hpat⟩ := magnitudePattern_eq (Int.natAbs_pos.2 ha) hb
  obtain ⟨he, hlast⟩ := no_overflow hx hk hlt
  have hmin := hx.min
  have hk0 : 0 ≤ k := ge_of_isNearestInt hk (by rw [Int.cast_zero]; positivity)
  have hk1 := significand_le hx hk
  have hk2 := le_significand hx hk
  lift k to ℕ using hk0
  obtain ⟨E, hE⟩ := Int.eq_ofNat_of_zero_le (by omega : 0 ≤ e + 1022)
  have hnorm : E ≠ 0 → 2 ^ 52 ≤ k := fun h => by exact_mod_cast hk2 (by omega)
  have hinf : infPattern = 2047 * 2 ^ 52 := rfl
  have hpat' : magnitudePattern a.natAbs b = E * 2 ^ 52 + k := by
    rw [hpat, hE, Int.toNat_natCast, Int.toNat_natCast, min_eq_left]
    omega
  rw [rn_eq_signedPattern ha, hpat']
  refine ⟨e, k, hx, hk, finite_signedPattern _ (by omega), ?_, fun heven => ?_⟩
  · rw [toRat_magnitude _ (by omega) (by omega) hnorm]
    have hexp : (E : ℤ) - 1074 = e - 52 := by omega
    have hsign : (a.sign : ℚ) = if a < 0 then -1 else 1 := by
      split
      · next h => rw [Int.sign_eq_neg_one_of_neg h]; rfl
      · next h => rw [Int.sign_eq_one_of_pos (by omega), Int.cast_one]
    simp only [decide_eq_true_eq, hexp, hsign, Int.cast_natCast]
  · obtain ⟨-, ⟨-, hsig⟩ | ⟨-, hsig, -⟩⟩ :=
      fields_of_magnitude (decide (a < 0)) (by omega) (by omega) hnorm
    · omega
    · omega

/-! ### RN is the nearest binary64 value -/

theorem toRat_zero : F64.toRat 0 = 0 := by
  have hnum : F64.num 0 = 0 := by decide
  rw [F64.toRat_eq, hnum, Int.cast_zero, zero_div]

/-- Zero rounds to +0, the only value as near to it as itself. -/
theorem isNearest_zero : IsNearest 0 0 where
  finite := by decide
  nearest y _ := by
    rw [toRat_zero, sub_zero, abs_zero]
    exact abs_nonneg _
  even y _ h := .inl <| by
    rw [toRat_zero, sub_zero, abs_zero, sub_zero] at h
    rw [toRat_zero, abs_eq_zero.1 h.symm]
  zero _ := rfl

theorem sign_mul_self {a : ℤ} (ha : a ≠ 0) : a.sign * a.sign = 1 := by
  rw [← sq, ← sq_abs, Int.abs_sign_of_ne_zero ha, one_pow]

/-- Distances do not depend on the sign of both ends. -/
theorem abs_sign_mul_sub {a : ℤ} (ha : a ≠ 0) (v x : ℚ) :
    |a.sign * v - a.sign * x| = |v - x| := by
  rw [← mul_sub, abs_mul, ← Int.cast_abs, Int.abs_sign_of_ne_zero ha, Int.cast_one, one_mul]

/-- A rational is its sign times its magnitude. -/
theorem eq_sign_mul_abs_div (a : ℤ) (b : ℕ) : (a : ℚ) / b = a.sign * |(a : ℚ) / b| := by
  rw [abs_div, Nat.abs_cast, ← mul_div_assoc, ← Int.cast_abs, ← Int.cast_mul, Int.sign_mul_abs]

/-- `rn` is RN of R17 for every rational that rounds to a finite value. -/
theorem isNearest_rn (a : ℤ) {b : Nat} (hb : 0 < b)
    (hlt : |(a : ℚ) / b| < 2 ^ 1024 - 2 ^ 970) : IsNearest (rn a b) (a / b) := by
  by_cases ha : a = 0
  · rw [ha, Int.cast_zero, zero_div]
    exact isNearest_zero
  obtain ⟨e, k, hx, hk, hfin, hval, heven⟩ := rn_spec ha hb hlt
  have hx' := eq_sign_mul_abs_div a b
  have hsign : |a.sign| = 1 := Int.abs_sign_of_ne_zero ha
  have key (y : F64) :
      |F64.toRat (rn a b) - a / b| ≤ |F64.toRat y - a / b| ∧
        (|F64.toRat (rn a b) - a / b| = |F64.toRat y - a / b| →
          F64.toRat y = F64.toRat (rn a b) ∨ k % 2 = 0) := by
    obtain ⟨s, c, hs, hc, hy⟩ := exists_toRat_eq y
    have hs' : |a.sign * s| < 2 ^ 53 := by rwa [abs_mul, hsign, one_mul]
    have hy' : F64.toRat y = a.sign * ((a.sign * s : ℤ) * 2 ^ c) := by
      rw [hy, ← mul_assoc, ← Int.cast_mul, ← mul_assoc, sign_mul_self ha, one_mul]
    obtain ⟨hle, heq⟩ := dist_le_dist_and_even hx hk hs' hc
    rw [hx', hval, hy', abs_sign_mul_sub ha, abs_sign_mul_sub ha]
    exact ⟨hle, fun h => (heq h).imp_left fun h => by rw [h]⟩
  exact
    { finite := hfin
      nearest := fun y _ => (key y).1
      even := fun y _ h => ((key y).2 h).imp_right heven
      zero := fun h => absurd h (div_ne_zero (Int.cast_ne_zero.2 ha) (Nat.cast_ne_zero.2 hb.ne')) }

/-! ### Exact results -/

/-- The values of the finite patterns (`exists_finite`). -/
def Representable (x : ℚ) : Prop := ∃ j c : ℤ, |j| < 2 ^ 53 ∧ -1074 ≤ c ∧ c ≤ 971 ∧ x = j * 2 ^ c

theorem Representable.abs_lt {x : ℚ} (h : Representable x) : |x| < 2 ^ 1024 - 2 ^ 970 := by
  obtain ⟨j, c, hj, -, hc, rfl⟩ := h
  have hj' : (|j| : ℚ) ≤ 2 ^ 53 - 1 := by exact_mod_cast Int.le_sub_one_of_lt hj
  have hu : (0 : ℚ) < 2 ^ 970 := by positivity
  have hend : (2 : ℚ) ^ 1024 = 2 ^ 970 * 2 ^ 54 := pow_add 2 970 54
  have hc' : (2 : ℚ) ^ c ≤ 2 ^ 970 * 2 :=
    two_zpow_971 ▸ zpow_le_zpow_right₀ one_le_two hc
  rw [abs_mul, abs_of_pos (by positivity : (0 : ℚ) < 2 ^ c), hend]
  refine (mul_le_mul hj' hc' (by positivity) (by norm_num)).trans_lt ?_
  generalize (2 : ℚ) ^ 970 = u at hu
  linarith

/-- A binary64 value rounds to itself: no value is nearer to it. -/
theorem toRat_rn_of_representable {a : ℤ} {b : Nat} (hb : 0 < b) (h : Representable ((a : ℚ) / b)) :
    F64.toRat (rn a b) = a / b := by
  by_cases ha : a = 0
  · rw [ha, rn_zero, Int.cast_zero, zero_div]
    exact toRat_zero
  obtain ⟨e, k, hx, hk, -, hval, -⟩ := rn_spec ha hb h.abs_lt
  obtain ⟨j, c, hj, hmin, -, hjc⟩ := h
  have hj' : |(|j|)| < 2 ^ 53 := by rwa [abs_abs]
  have hmag : ((|j| : ℤ) : ℚ) * 2 ^ c = |(a : ℚ) / b| := by
    rw [hjc, abs_mul, abs_of_pos (by positivity : (0 : ℚ) < 2 ^ c), Int.cast_abs]
  have hle := (dist_le_dist_and_even hx hk hj' hmin).1
  rw [hmag, sub_self, abs_zero, abs_nonpos_iff, sub_eq_zero] at hle
  rw [hval, hle]
  exact (eq_sign_mul_abs_div a b).symm

theorem Representable.exists_finite {x : ℚ} (h : Representable x) :
    ∃ f : F64, F64.finite f = true ∧ F64.toRat f = x := by
  have hx : ((x.num : ℤ) : ℚ) / x.den = x := Rat.num_div_den x
  have hfin : IsNearest (rn x.num x.den) (x.num / x.den) :=
    isNearest_rn x.num x.den_pos (by rw [hx]; exact h.abs_lt)
  exact ⟨_, hfin.finite, (toRat_rn_of_representable x.den_pos (by rwa [hx])).trans hx⟩

/-- A rational no larger than a binary64 value rounds to a finite one. -/
theorem Representable.abs_lt_of_le {x y : ℚ} (h : Representable y) (hxy : |x| ≤ y) :
    |x| < 2 ^ 1024 - 2 ^ 970 :=
  (hxy.trans (le_abs_self y)).trans_lt h.abs_lt

/-- A natural number of at most 53 bits, scaled by a power of two. -/
theorem representable_mul_two_zpow {n : Nat} (hn : n < 2 ^ 53) {c : ℤ} (hmin : -1074 ≤ c)
    (hmax : c ≤ 971) : Representable (n * 2 ^ c) :=
  ⟨n, c, by rw [Nat.abs_cast]; exact_mod_cast hn, hmin, hmax, rfl⟩

theorem representable_natCast {n : Nat} (hn : n < 2 ^ 53) : Representable n := by
  simpa using representable_mul_two_zpow hn (c := 0) (by decide) (by decide)

/-! ### Operations -/

/-- `r` is `rn` of the rational `x`. -/
def IsRn (r : F64) (x : ℚ) : Prop := ∃ (a : ℤ) (b : ℕ), 0 < b ∧ r = rn a b ∧ x = a / b

theorem isRn_fcvt (n : ℤ) : IsRn (fcvt n) n :=
  ⟨n, 1, Nat.one_pos, rfl, by rw [Nat.cast_one, div_one]⟩

section
variable (x y : F64)

theorem isRn_fadd : IsRn (fadd x y) (F64.toRat x + F64.toRat y) := by
  have hx : (F64.den x : ℚ) ≠ 0 := Nat.cast_ne_zero.2 (F64.den_pos x).ne'
  have hy : (F64.den y : ℚ) ≠ 0 := Nat.cast_ne_zero.2 (F64.den_pos y).ne'
  refine ⟨_, _, Nat.mul_pos (F64.den_pos x) (F64.den_pos y), rfl, ?_⟩
  rw [F64.toRat_eq, F64.toRat_eq, div_add_div _ _ hx hy]
  push_cast
  rw [mul_comm (F64.den x : ℚ) (F64.num y)]

theorem isRn_fmul : IsRn (fmul x y) (F64.toRat x * F64.toRat y) := by
  refine ⟨_, _, Nat.mul_pos (F64.den_pos x) (F64.den_pos y), rfl, ?_⟩
  rw [F64.toRat_eq, F64.toRat_eq, div_mul_div_comm]
  push_cast
  rfl

theorem isRn_fdiv (hy : 0 < F64.toRat y) : IsRn (fdiv x y) (F64.toRat x / F64.toRat y) := by
  have hd : (0 : ℚ) < F64.den y := Nat.cast_pos.2 (F64.den_pos y)
  have hn : 0 < F64.num y := by
    rw [F64.toRat_eq, div_pos_iff_of_pos_right hd] at hy
    exact_mod_cast hy
  obtain ⟨n, hn'⟩ := Int.eq_ofNat_of_zero_le hn.le
  refine ⟨_, _, Nat.mul_pos (F64.den_pos x) (Int.pos_iff_toNat_pos.1 hn), rfl, ?_⟩
  rw [F64.toRat_eq, F64.toRat_eq, div_div_div_eq, hn', Int.toNat_natCast]
  push_cast
  rfl

end

section
variable {r : F64} {x : ℚ}

theorem IsRn.isNearest (h : IsRn r x) (hlt : |x| < 2 ^ 1024 - 2 ^ 970) : IsNearest r x := by
  obtain ⟨a, b, hb, rfl, rfl⟩ := h
  exact isNearest_rn a hb hlt

theorem IsRn.toRat_eq (h : IsRn r x) (hx : Representable x) : F64.toRat r = x := by
  obtain ⟨a, b, hb, rfl, rfl⟩ := h
  exact toRat_rn_of_representable hb hx

/-- Rounding does not pass a binary64 value. -/
theorem le_of_isNearest (h : IsNearest r x) {y : ℚ} (hy : Representable y) (hxy : x ≤ y) :
    F64.toRat r ≤ y := by
  obtain ⟨f, hfin, rfl⟩ := hy.exists_finite
  have hle := h.nearest f hfin
  rw [abs_of_nonneg (sub_nonneg.2 hxy)] at hle
  linarith [le_abs_self (F64.toRat r - x)]

theorem ge_of_isNearest (h : IsNearest r x) {y : ℚ} (hy : Representable y) (hxy : y ≤ x) :
    y ≤ F64.toRat r := by
  obtain ⟨f, hfin, rfl⟩ := hy.exists_finite
  have hle := h.nearest f hfin
  rw [abs_sub_comm (F64.toRat f), abs_of_nonneg (sub_nonneg.2 hxy)] at hle
  linarith [neg_abs_le (F64.toRat r - x)]

end

end Sys2Proof.Proofs.Rounding

/-! The timestamp converter of 40_packet_codec.md section 1: ENC packs the whole seconds and the fraction
(R152), and both bodies follow their rounding pipelines (R153, R156). -/

namespace Sys2Proof.Proofs.Timestamp

open Sys2Proof.Machine Sys2Proof.Proofs.Scope Sys2Proof.Proofs.Rounding

/-! ### The parameters' bounds (00_scope.md R10, R12) -/

section
variable {p : Params} (hp : p.legal = true)
include hp

theorem tickHz_bounds : 1000 ≤ p.tickHz ∧ p.tickHz ≤ 1000000000 := by
  simp only [Params.legal, Params.tickHzLegal, Bool.and_eq_true, decide_eq_true_eq] at hp
  exact hp.1.1

theorem tickHz_pos : 0 < p.tickHz := Nat.lt_of_lt_of_le (by decide) (tickHz_bounds hp).1

/-- The ticks from the epoch to any later Instant fit in 64 bits. -/
theorem delta_lt (t : Word) : (t.toInt - ntpEpoch p).toNat < 2 ^ 64 := by
  have ht := t.toInt_lt
  have hz := (tickHz_bounds hp).2
  have hne : -(2 ^ 62 : ℤ) < ntpEpoch p := by
    rw [ntpEpoch, epochDeltaS]
    omega
  omega

/-- `TICK_HZ` is a binary64 value. -/
theorem toRat_fcvt_tickHz : F64.toRat (fcvt p.tickHz) = p.tickHz := by
  have hz := (tickHz_bounds hp).2
  exact_mod_cast (isRn_fcvt p.tickHz).toRat_eq
    (by exact_mod_cast representable_natCast (by omega : p.tickHz < 2 ^ 53))

end

/-! ### The binary64 count of seconds (R153) -/

/-- The greatest 64-bit count of ticks, rounded up to a power of two. -/
theorem representable_two_pow_64 : Representable (2 ^ 64) := by
  have h := representable_mul_two_zpow (n := 1) (by decide) (c := 64) (by decide) (by decide)
  rwa [Nat.cast_one, one_mul] at h

theorem representable_zero : Representable 0 := by
  exact_mod_cast representable_natCast (n := 0) (by decide)

theorem isNearest_fcvt {n : Nat} (hn : n < 2 ^ 64) : IsNearest (fcvt n) n := by
  have h := isRn_fcvt n
  rw [Int.cast_natCast] at h
  refine h.isNearest (representable_two_pow_64.abs_lt_of_le ?_)
  rw [Nat.abs_cast]
  exact_mod_cast hn.le

/-- The delta in seconds: one rounding into binary64, one of the division. -/
def secondsCount (p : Params) (n : Nat) : F64 := fdiv (fcvt n) (fcvt p.tickHz)

theorem secondsCount_spec {p : Params} (hp : p.legal = true) {n : Nat} (hn : n < 2 ^ 64) :
    IsNearest (secondsCount p n) (F64.toRat (fcvt n) / F64.toRat (fcvt p.tickHz)) ∧
      0 ≤ F64.toRat (secondsCount p n) := by
  have hhz : (1 : ℚ) ≤ p.tickHz := by exact_mod_cast tickHz_pos hp
  have hn' : (n : ℚ) ≤ 2 ^ 64 := by exact_mod_cast hn.le
  have hlo := ge_of_isNearest (isNearest_fcvt hn) representable_zero (Nat.cast_nonneg n)
  have hhi := le_of_isNearest (isNearest_fcvt hn) representable_two_pow_64 hn'
  have hdiv := isRn_fdiv (fcvt n) (fcvt p.tickHz) (by rw [toRat_fcvt_tickHz hp]; linarith)
  rw [toRat_fcvt_tickHz hp] at hdiv ⊢
  have hpos : 0 ≤ F64.toRat (fcvt n) / p.tickHz := div_nonneg hlo (by linarith)
  have hnear := hdiv.isNearest <| representable_two_pow_64.abs_lt_of_le <| by
    rw [abs_of_nonneg hpos]
    exact (div_le_self hlo hhz).trans hhi
  exact ⟨hnear, ge_of_isNearest hnear representable_zero hpos⟩

/-! ### ENC_BODY under BINARY64 (R153) -/

/-- `F64.floor` is the floor of the value. -/
theorem floor_eq (x : F64) : F64.floor x = ⌊F64.toRat x⌋ := by
  rw [F64.toRat_eq, Rat.floor_intCast_div_natCast]
  rfl

/-- The `k`-th octet of the fraction of `x`, scaled, truncated and masked by itself. -/
def fractionOctet (x : ℚ) (k : Nat) : Int := ⌊(x - ⌊x⌋) * 2 ^ (8 * k)⌋ % 256

theorem fractionOctet_bounds (x : ℚ) (k : Nat) : 0 ≤ fractionOctet x k ∧ fractionOctet x k < 256 :=
  ⟨Int.emod_nonneg _ (by decide), Int.emod_lt_of_pos _ (by decide)⟩

/-- The octet as ENC_BODY computes it, from numerator and denominator. -/
theorem toNat_octet (x : F64) (k : Nat) :
    (((F64.num x - F64.floor x * F64.den x) * 2 ^ (8 * k) / F64.den x % 256).toNat : Int) =
      fractionOctet (F64.toRat x) k := by
  have hd : (F64.den x : ℚ) ≠ 0 := Nat.cast_ne_zero.2 (F64.den_pos x).ne'
  rw [Int.toNat_of_nonneg (Int.emod_nonneg _ (by decide)), fractionOctet, ← floor_eq,
    ← Rat.floor_intCast_div_natCast, F64.toRat_eq]
  congr 2
  push_cast
  field_simp

/-- What ENC_BODY for BINARY64 returns, in terms of the count of seconds. -/
theorem encBodyBinary64_spec (p : Params) (n : Nat) :
    let e := encBodyBinary64 p n
    let d := F64.toRat (secondsCount p n)
    (e.wrap = true ↔ 2 ^ 32 ≤ ⌊d⌋) ∧ (e.s32 : Int) = ⌊d⌋ % 2 ^ 32 ∧
      (e.f32 : Int) = fractionOctet d 1 * 2 ^ 24 + fractionOctet d 2 * 2 ^ 16 +
        fractionOctet d 3 * 2 ^ 8 + fractionOctet d 4 := by
  refine ⟨?_, ?_, ?_⟩
  · rw [← floor_eq]
    exact decide_eq_true_iff
  · rw [← floor_eq]
    exact Int.toNat_of_nonneg (Int.emod_nonneg _ (by decide))
  · simp only [← toNat_octet]
    exact_mod_cast rfl

/-- Settles O14, with the converted delta, `TICK_HZ` and `secondsCount` as the three values. -/
theorem encBinary64FollowsThePipeline : Obligations.EncBinary64FollowsThePipeline := by
  intro p hp n hn
  exact ⟨fcvt n, fcvt p.tickHz, secondsCount p n, isNearest_fcvt hn,
    isNearest_fcvt ((tickHz_bounds hp).2.trans_lt (by decide)), toRat_fcvt_tickHz hp,
    (secondsCount_spec hp hn).1, encBodyBinary64_spec p n⟩

/-! ### ENC (R152) -/

/-- `e` packs the low 32 bits of the whole seconds and a 32-bit fraction, and says whether the seconds
wrapped. -/
structure PacksSeconds (e : EncBody) (seconds : Int) : Prop where
  nonneg : 0 ≤ seconds
  low : (e.s32 : Int) = seconds % 2 ^ 32
  fraction : e.f32 < 2 ^ 32
  wrapped : e.wrap = true ↔ 2 ^ 32 ≤ seconds

theorem packsSeconds_binary64 {p : Params} (hp : p.legal = true) {n : Nat} (hn : n < 2 ^ 64) :
    PacksSeconds (encBodyBinary64 p n) ⌊F64.toRat (secondsCount p n)⌋ := by
  obtain ⟨hwrap, hs32, hf32⟩ := encBodyBinary64_spec p n
  have octet (k : Nat) := fractionOctet_bounds (F64.toRat (secondsCount p n)) k
  have h1 := octet 1
  have h2 := octet 2
  have h3 := octet 3
  have h4 := octet 4
  exact ⟨Int.floor_nonneg.2 (secondsCount_spec hp hn).2, hs32, by omega, hwrap⟩

theorem packsSeconds_exact {p : Params} (hp : p.legal = true) (n : Nat) :
    PacksSeconds (encBodyExact p n) (n / p.tickHz) where
  nonneg := by positivity
  low := by simp only [encBodyExact]; push_cast; rfl
  fraction := by
    have hmod : n % p.tickHz < p.tickHz := Nat.mod_lt _ (tickHz_pos hp)
    rw [encBodyExact, Nat.div_lt_iff_lt_mul (tickHz_pos hp), mul_comm]
    exact Nat.mul_lt_mul_of_pos_left hmod (by decide)
  wrapped := by
    simp only [encBodyExact, decide_eq_true_eq]
    exact_mod_cast Iff.rfl

/-- From the epoch on ENC packs the body of the delta. -/
theorem enc_of_packsSeconds {p : Params} {t : Word} {seconds : Int} (ht : ntpEpoch p ≤ t.toInt)
    (h : PacksSeconds (encBody p (t.toInt - ntpEpoch p).toNat) seconds) :
    let e := encBody p (t.toInt - ntpEpoch p).toNat
    0 ≤ seconds ∧ (e.s32 : Int) = seconds % 2 ^ 32 ∧ e.f32 < 2 ^ 32 ∧
      (enc p t).raw.toNat = e.s32 * 2 ^ 32 + e.f32 ∧
      ((enc p t).clamp = true ↔ 2 ^ 32 ≤ seconds) := by
  have hn : ¬t.toInt - ntpEpoch p < 0 := by omega
  have hlow := h.low
  have hf := h.fraction
  refine ⟨h.nonneg, hlow, hf, ?_⟩
  simp only [enc, if_neg hn, decide_eq_false hn, Bool.false_or]
  refine ⟨?_, h.wrapped⟩
  rw [BitVec.toNat_ofNat]
  omega

/-- The count of no ticks is +0. -/
theorem secondsCount_zero {p : Params} (hp : p.legal = true) : secondsCount p 0 = 0 := by
  have hfn : fcvt (0 : Nat) = 0 := (isNearest_fcvt (by decide)).zero Nat.cast_zero
  exact (secondsCount_spec hp (by decide)).1.zero (by rw [hfn, toRat_zero, zero_div])

/-- The body of a zero delta is zero in either arithmetic. -/
theorem encBody_zero {p : Params} (hp : p.legal = true) :
    (encBody p 0).s32 = 0 ∧ (encBody p 0).f32 = 0 := by
  cases harith : p.encodeArith with
  | binary64 =>
    obtain ⟨-, hs32, hf32⟩ := encBodyBinary64_spec p 0
    have hbody : encBody p 0 = encBodyBinary64 p 0 := by rw [encBody, harith]
    have hoctet (k : Nat) : fractionOctet 0 k = 0 := by
      simp [fractionOctet]
    rw [secondsCount_zero hp, toRat_zero] at hs32 hf32
    simp only [hoctet, Int.floor_zero] at hs32 hf32
    rw [hbody]
    omega
  | exact =>
    have hbody : encBody p 0 = encBodyExact p 0 := by rw [encBody, harith]
    rw [hbody]
    simp [encBodyExact]

theorem enc_before_epoch {p : Params} (hp : p.legal = true) {t : Word} (ht : t.toInt < ntpEpoch p) :
    enc p t = { raw := 0, clamp := true } := by
  have hn : t.toInt - ntpEpoch p < 0 := by omega
  obtain ⟨hs32, hf32⟩ := encBody_zero hp
  simp only [enc, if_pos hn, hs32, hf32, decide_eq_true hn, Bool.true_or]
  rfl

/-- Settles O13: the clamp by `enc_before_epoch`, and either arithmetic's body packs its seconds. -/
theorem encClampsAndPacks : Obligations.EncClampsAndPacks := by
  intro p hp t
  refine ⟨enc_before_epoch hp, fun ht => ?_⟩
  cases harith : p.encodeArith with
  | binary64 =>
    refine enc_of_packsSeconds ht ?_
    rw [encBody, harith]
    exact packsSeconds_binary64 hp (delta_lt hp t)
  | exact =>
    refine enc_of_packsSeconds ht ?_
    rw [encBody, harith]
    exact packsSeconds_exact hp _

/-! ### The exact seconds of an NTP64 value (R156) -/

/-- A 53-bit integer over 2^32 is a binary64 value. -/
theorem representable_fraction {m : Nat} (hm : m < 2 ^ 53) : Representable ((m : ℚ) / 2 ^ 32) := by
  rw [div_eq_mul_inv]
  exact representable_mul_two_zpow hm (c := -32) (by decide) (by decide)

/-- A weighted octet is exact. -/
theorem toRat_rn_fraction {v d m : Nat} (hd : 0 < d) (hm : m < 2 ^ 53) (h : v * 2 ^ 32 = m * d) :
    F64.toRat (rn v d) = (m : ℚ) / 2 ^ 32 := by
  have hvd : ((v : ℤ) : ℚ) / d = (m : ℚ) / 2 ^ 32 := by
    rw [div_eq_div_iff (Nat.cast_ne_zero.2 hd.ne') (by positivity)]
    exact_mod_cast h
  rw [← hvd]
  exact toRat_rn_of_representable hd (hvd ▸ representable_fraction hm)

/-- A sum of fractions is exact. -/
theorem toRat_fadd_fraction {x y : F64} {m n : Nat} (hx : F64.toRat x = (m : ℚ) / 2 ^ 32)
    (hy : F64.toRat y = (n : ℚ) / 2 ^ 32) (h : m + n < 2 ^ 53) :
    F64.toRat (fadd x y) = ((m + n : Nat) : ℚ) / 2 ^ 32 := by
  have hsum : F64.toRat x + F64.toRat y = ((m + n : Nat) : ℚ) / 2 ^ 32 := by
    rw [hx, hy, Nat.cast_add, add_div]
  rw [← hsum]
  exact (isRn_fadd x y).toRat_eq (hsum ▸ representable_fraction h)

/-- The four fraction octets, weighted and summed as DEC_BODY does. -/
def fractionSum (b1 b2 b3 b4 : Byte) : F64 :=
  fadd (fadd (fadd (rn b1.toNat 256) (rn b2.toNat 65536)) (rn b3.toNat 16777216))
    (rn b4.toNat 4294967296)

/-- No rounding touches the fraction: the octets are one 32-bit fraction. -/
theorem toRat_fractionSum (b1 b2 b3 b4 : Byte) :
    F64.toRat (fractionSum b1 b2 b3 b4) =
      ((b1.toNat * 2 ^ 24 + b2.toNat * 2 ^ 16 + b3.toNat * 2 ^ 8 + b4.toNat : Nat) : ℚ) / 2 ^ 32 := by
  have h1 := b1.isLt
  have h2 := b2.isLt
  have h3 := b3.isLt
  have h4 := b4.isLt
  refine toRat_fadd_fraction (toRat_fadd_fraction (toRat_fadd_fraction ?_ ?_ ?_) ?_ ?_) ?_ ?_
  · exact toRat_rn_fraction (by decide) (by omega) (by omega)
  · exact toRat_rn_fraction (by decide) (by omega) (by omega)
  · omega
  · exact toRat_rn_fraction (by decide) (by omega) (by omega)
  · omega
  · exact toRat_rn_fraction (by decide) (by omega) (by omega)
  · omega

/-- The fraction of an NTP64 value. -/
def rawFraction (raw : Word) : F64 :=
  fractionSum (raw.extractLsb' 24 8) (raw.extractLsb' 16 8) (raw.extractLsb' 8 8)
    (raw.extractLsb' 0 8)

theorem toRat_rawFraction (raw : Word) :
    F64.toRat (rawFraction raw) = ((raw.toNat % 2 ^ 32 : Nat) : ℚ) / 2 ^ 32 := by
  rw [rawFraction, toRat_fractionSum]
  congr 2
  simp only [BitVec.extractLsb'_toNat, Nat.shiftRight_eq_div_pow]
  omega

/-- The whole seconds of an NTP64 value convert exactly. -/
theorem toRat_rawSeconds (raw : Word) :
    F64.toRat (fcvt (raw.extractLsb' 32 32).toNat) = (raw.toNat / 2 ^ 32 : Nat) := by
  have hraw := raw.isLt
  have hi : (raw.extractLsb' 32 32).toNat = raw.toNat / 2 ^ 32 := by
    rw [BitVec.extractLsb'_toNat, Nat.shiftRight_eq_div_pow]
    omega
  rw [hi]
  exact (isRn_fcvt _).toRat_eq (representable_natCast (by omega))

/-- The exact seconds of an NTP64 value are the value over 2^32. -/
theorem exactSeconds_eq (raw : Word) :
    ((raw.toNat / 2 ^ 32 : Nat) + (raw.toNat % 2 ^ 32 : Nat) / 2 ^ 32 : ℚ) = raw.toNat / 2 ^ 32 := by
  rw [eq_div_iff (by positivity), add_mul, div_mul_cancel₀ _ (by positivity)]
  exact_mod_cast Nat.div_add_mod' raw.toNat (2 ^ 32)

theorem exactSeconds_le (raw : Word) : (raw.toNat : ℚ) / 2 ^ 32 ≤ 2 ^ 32 := by
  have hraw : (raw.toNat : ℚ) ≤ 2 ^ 32 * 2 ^ 32 := by exact_mod_cast raw.isLt.le
  rwa [div_le_iff₀ (by positivity)]

/-! ### DEC (R156) -/

/-- The delta in seconds and in ticks, as DEC_BODY for BINARY64 computes them. -/
def decodedSeconds (raw : Word) : F64 := fadd (fcvt (raw.extractLsb' 32 32).toNat) (rawFraction raw)

def decodedTicks (p : Params) (raw : Word) : F64 := fmul (decodedSeconds raw) (fcvt p.tickHz)

theorem decBody_binary64 {p : Params} (harith : p.decodeArith = .binary64) (raw : Word) :
    decBody p raw = rni (F64.num (decodedTicks p raw)) (F64.den (decodedTicks p raw)) := by
  rw [decBody, harith]
  rfl

theorem decBody_exact {p : Params} (harith : p.decodeArith = .exact) (raw : Word) :
    decBody p raw = rni (raw.toNat * p.tickHz : Nat) (2 ^ 32) := by
  rw [decBody, harith]
  rfl

/-- One rounding of the exact seconds, which stays within era 0. -/
theorem decodedSeconds_spec (raw : Word) :
    IsNearest (decodedSeconds raw) (raw.toNat / 2 ^ 32) ∧
      0 ≤ F64.toRat (decodedSeconds raw) ∧ F64.toRat (decodedSeconds raw) ≤ 2 ^ 32 := by
  have hsum := isRn_fadd (fcvt (raw.extractLsb' 32 32).toNat) (rawFraction raw)
  rw [toRat_rawSeconds, toRat_rawFraction, exactSeconds_eq] at hsum
  have hend : Representable ((2 : ℚ) ^ 32) := by
    exact_mod_cast representable_natCast (n := 2 ^ 32) (by decide)
  have hlo : (0 : ℚ) ≤ raw.toNat / 2 ^ 32 := by positivity
  have hhi := exactSeconds_le raw
  have hnear := hsum.isNearest (hend.abs_lt_of_le ((abs_of_nonneg hlo).trans_le hhi))
  exact ⟨hnear, ge_of_isNearest hnear representable_zero hlo, le_of_isNearest hnear hend hhi⟩

/-- One rounding of the product with `TICK_HZ`, which stays within era 0. -/
theorem decodedTicks_spec {p : Params} (hp : p.legal = true) (raw : Word) :
    IsNearest (decodedTicks p raw) (F64.toRat (decodedSeconds raw) * p.tickHz) ∧
      0 ≤ F64.toRat (decodedTicks p raw) ∧ F64.toRat (decodedTicks p raw) ≤ 2 ^ 32 * p.tickHz := by
  have hprod := isRn_fmul (decodedSeconds raw) (fcvt p.tickHz)
  rw [toRat_fcvt_tickHz hp] at hprod
  have hend : Representable ((2 : ℚ) ^ 32 * p.tickHz) := by
    rw [mul_comm]
    exact representable_mul_two_zpow ((tickHz_bounds hp).2.trans_lt (by decide)) (c := 32)
      (by decide) (by decide)
  obtain ⟨-, hslo, hshi⟩ := decodedSeconds_spec raw
  have hlo := mul_nonneg hslo (Nat.cast_nonneg p.tickHz)
  have hhi := mul_le_mul_of_nonneg_right hshi (Nat.cast_nonneg p.tickHz)
  have hnear := hprod.isNearest (hend.abs_lt_of_le ((abs_of_nonneg hlo).trans_le hhi))
  exact ⟨hnear, ge_of_isNearest hnear representable_zero hlo, le_of_isNearest hnear hend hhi⟩

/-- Under BINARY64 one rounding of the ticks to an integer. -/
theorem isNearestInt_decBody_binary64 {p : Params} (harith : p.decodeArith = .binary64) (raw : Word) :
    IsNearestInt (decBody p raw) (F64.toRat (decodedTicks p raw)) := by
  rw [decBody_binary64 harith, F64.toRat_eq]
  exact integerRoundingIsToNearestEven _ _ (F64.den_pos _)

/-- Under EXACT one rounding of the exact product. -/
theorem isNearestInt_decBody_exact {p : Params} (harith : p.decodeArith = .exact) (raw : Word) :
    IsNearestInt (decBody p raw) ((raw.toNat : ℚ) * p.tickHz / 2 ^ 32) := by
  have h := integerRoundingIsToNearestEven (raw.toNat * p.tickHz : Nat) (2 ^ 32) (Nat.two_pow_pos 32)
  rw [decBody_exact harith]
  simpa only [Int.cast_natCast, Int.cast_mul, Nat.cast_mul, Nat.cast_pow, Nat.cast_ofNat] using h

/-- In either arithmetic the ticks lie in era 0. -/
theorem decBody_bounds {p : Params} (hp : p.legal = true) (raw : Word) :
    0 ≤ decBody p raw ∧ decBody p raw ≤ 2 ^ 32 * p.tickHz := by
  obtain ⟨x, hbody, hlo, hhi⟩ : ∃ x : ℚ, IsNearestInt (decBody p raw) x ∧ 0 ≤ x ∧
      x ≤ 2 ^ 32 * p.tickHz := by
    cases harith : p.decodeArith with
    | binary64 =>
      exact ⟨_, isNearestInt_decBody_binary64 harith raw, (decodedTicks_spec hp raw).2⟩
    | exact =>
      refine ⟨_, isNearestInt_decBody_exact harith raw, by positivity, ?_⟩
      rw [mul_div_right_comm]
      exact mul_le_mul_of_nonneg_right (exactSeconds_le raw) (Nat.cast_nonneg _)
  exact ⟨ge_of_isNearestInt hbody (by exact_mod_cast hlo),
    le_of_isNearestInt hbody (by exact_mod_cast hhi)⟩

/-- The decoded Instant fits in 64 bits (R158), so the wrap changes nothing. -/
theorem dec_toInt {p : Params} (hp : p.legal = true) (raw : Word) :
    (dec p raw).toInt = ntpEpoch p + decBody p raw := by
  obtain ⟨hlo, hhi⟩ := decBody_bounds hp raw
  have hz := (tickHz_bounds hp).2
  have hne : -(2 ^ 62 : ℤ) < ntpEpoch p ∧ ntpEpoch p ≤ 0 := by
    rw [ntpEpoch, epochDeltaS]
    omega
  rw [dec, wrap64, BitVec.toInt_ofInt]
  exact Int.bmod_eq_of_le (by omega) (by omega)

/-- Settles O18, by each variant's pipeline and the range of the sum. -/
theorem decFollowsThePipeline : Obligations.DecFollowsThePipeline := by
  intro p hp raw
  refine ⟨dec_toInt hp raw, fun harith => ?_, fun harith => isNearestInt_decBody_exact harith raw⟩
  refine ⟨decodedSeconds raw, decodedTicks p raw, ?_, (decodedTicks_spec hp raw).1,
    isNearestInt_decBody_binary64 harith raw⟩
  rw [exactSeconds_eq]
  exact (decodedSeconds_spec raw).1

end Sys2Proof.Proofs.Timestamp

/-! The packet codec's commands of 40_packet_codec.md: BUILDREQ, ENCTS, DECTS, DECTSB and DECHDR (R161 to
R164, R195). -/

namespace Sys2Proof.Proofs.PacketCodec

open Sys2Proof.Machine Sys2Proof.Proofs.Scope Sys2Proof.Proofs.Timestamp

/-! ### Fields and STATUS words -/

theorem be32_toNat_eq_beNat (m : Memory) (o : Nat) : (be32 m o).toNat = beNat m o 4 := by
  rw [be32_toNat]
  simp only [beNat, Nat.add_zero]
  omega

theorem be64_toNat_eq_beNat (m : Memory) (o : Nat) : (be64 m o).toNat = beNat m o 8 := by
  rw [be64_toNat, be32_toNat_eq_beNat, be32_toNat_eq_beNat]
  simp only [beNat, Nat.add_zero, Nat.add_assoc, Nat.reduceAdd]
  omega

theorem be64_eq_ofNat (m : Memory) (o : Nat) : be64 m o = BitVec.ofNat 64 (beNat m o 8) := by
  rw [← be64_toNat_eq_beNat, BitVec.ofNat_toNat, BitVec.setWidth_eq]

/-- A command leaves the block its result equation names. -/
theorem exec_of_result {i : Instr} {s : State} {b : Block} (h : Instr.result i s.block = b) :
    exec i s = .next (s.setBlock b) := by
  rw [exec_eq, h]

/-- STATUS of a command that completes without RANGE. -/
theorem completedStatus_toNat (clamp : Bool) {opc : BitVec 8} {n : Nat} (h : 2 ^ 16 * opc.toNat = n) :
    (statusWord .none clamp false 0 opc).toNat = n + 2 ^ 8 * clamp.toNat := by
  rw [statusWord_toNat, ← h]
  show 0 + 2 ^ 8 * clamp.toNat + 2 ^ 9 * 0 + 2 ^ 10 * 0 + 2 ^ 16 * opc.toNat = _
  omega

/-- The Instant DEC returns at the default parameters. -/
theorem dec_default_toInt (raw : Word) :
    (dec Config.params raw).toInt = -22089888000000000 + decBody Config.params raw :=
  dec_toInt (by decide) raw

theorem dec_be64_toInt (m : Memory) (o : Nat) :
    (dec Config.params (be64 m o)).toInt =
      -22089888000000000 + decBody Config.params (BitVec.ofNat 64 (beNat m o 8)) := by
  rw [dec_default_toInt, be64_eq_ofNat]

/-! ### BUILDREQ (R161) -/

theorem getD_octetsBE (raw : Word) {j : Nat} (hj : j < 8) :
    ((octetsBE raw).getD j 0).toNat = raw.toNat / 2 ^ (56 - 8 * j) % 256 := by
  have hget : (octetsBE raw).getD j 0 = raw.extractLsb' (56 - 8 * j) 8 := by
    simp [octetsBE, List.getD, hj]
  rw [hget, BitVec.extractLsb'_toNat, Nat.shiftRight_eq_div_pow]

theorem length_requestOctets (raw : Word) : (requestOctets raw).length = 48 := rfl

theorem getD_requestOctets_first (raw : Word) : (requestOctets raw).getD 0 0 = 0x23 := rfl

/-- After the first octet the request is zero up to octet 39. -/
theorem getD_requestOctets_zero (raw : Word) {i : Nat} (hlo : 1 ≤ i) (hhi : i ≤ 39) :
    (requestOctets raw).getD i 0 = 0 := by
  obtain ⟨j, rfl⟩ := Nat.exists_eq_add_of_le' hlo
  have hj : j < (List.replicate 39 (0 : Byte)).length := by
    rw [List.length_replicate]
    omega
  rw [requestOctets, List.cons_append, List.getD_cons_succ, List.getD_append _ _ _ _ hj,
    List.getD_replicate]
  omega

/-- The request's last eight octets are the timestamp. -/
theorem getD_requestOctets_timestamp (raw : Word) (j : Nat) :
    (requestOctets raw).getD (40 + j) 0 = (octetsBE raw).getD j 0 := by
  have hlen : (0x23 :: List.replicate 39 (0 : Byte)).length = 40 := rfl
  rw [requestOctets, List.getD_append_right _ _ _ _ (by omega), hlen, Nat.add_sub_cancel_left]

section
variable {m : Memory} (hm : m.wf = true) (raw : Word)
include hm

theorem read_request {i : Nat} (hi : i < 48) :
    (m.writeList 0 (requestOctets raw)).read i = (requestOctets raw).getD i 0 := by
  rw [Memory.read_writeList hm, length_requestOctets, if_pos (by omega), Nat.sub_zero]

theorem read_past_request {i : Nat} (hi : 48 ≤ i) :
    (m.writeList 0 (requestOctets raw)).read i = m.read i := by
  rw [Memory.read_writeList hm, length_requestOctets, if_neg (by omega)]

end

/-- Settles O23, by `buildreq_eq` and what reads of the written request return. -/
theorem buildreqBuildsTheRequest : Obligations.BuildreqBuildsTheRequest := by
  intro s hwf e
  refine ⟨_, exec_of_result (buildreq_eq _ _), rfl, ?_⟩
  simp only [State.setBlock_block]
  refine ⟨?_, fun i hlo hhi => ?_, fun j hj => ?_, fun a ha => read_past_request hwf _ ha, rfl,
    completedStatus_toNat _ rfl, trivial⟩
  · rw [read_request hwf _ (by decide), getD_requestOctets_first]
  · rw [read_request hwf _ (by omega), getD_requestOctets_zero _ hlo hhi]
  · rw [read_request hwf _ (by omega), getD_requestOctets_timestamp, getD_octetsBE _ (by omega)]

/-! ### ENCTS and DECTS (R162, R163) -/

/-- Settles O26, by `encts_eq`. -/
theorem enctsEncodesArg0 : Obligations.EnctsEncodesArg0 := by
  intro s e
  exact ⟨_, exec_of_result (encts_eq _ _), rfl, rfl, completedStatus_toNat _ rfl, rfl⟩

/-- Settles O27, by `dects_eq` and the range of DEC. -/
theorem dectsDecodesArg0 : Obligations.DectsDecodesArg0 :=
  fun _ => ⟨_, exec_of_result (dects_eq _ _), rfl, dec_default_toInt _, completedStatus_toNat _ rfl, rfl⟩

/-! ### DECTSB and DECHDR (R164, R195) -/

/-- Settles O28, by the two cases of DECTSB. -/
theorem dectsbDecodesTheFieldOrIsMalformed : Obligations.DectsbDecodesTheFieldOrIsMalformed := by
  intro s o
  have hcap : Config.params.pktInCap = 68 := rfl
  obtain ⟨hshort, hres⟩ | ⟨hfits, hres⟩ := dectsb_cases Config.params s.block o
  · exact ⟨fun _ _ => by omega, fun _ => exec_of_result hres⟩
  · exact ⟨fun _ _ => ⟨_, exec_of_result hres, rfl, dec_be64_toInt _ _, completedStatus_toNat _ rfl, rfl⟩,
      fun _ => by omega⟩

/-- Settles O29, by the two cases of DECHDR. -/
theorem dechdrDecodesTheTimestampsOrIsMalformed :
    Obligations.DechdrDecodesTheTimestampsOrIsMalformed := by
  intro s
  obtain ⟨hshort, hres⟩ | ⟨hfits, hres⟩ := dechdr_cases Config.params s.block
  · exact ⟨fun _ => by omega, fun _ => exec_of_result hres⟩
  · exact ⟨fun _ => ⟨_, exec_of_result hres, rfl, dec_be64_toInt _ _, dec_be64_toInt _ _,
      dec_be64_toInt _ _, dec_be64_toInt _ _, completedStatus_toNat _ rfl, rfl⟩, fun _ => by omega⟩

end Sys2Proof.Proofs.PacketCodec

/-! The views and the rendered reference identifier of 40_packet_codec.md section 3. -/

namespace Sys2Proof.Proofs.Views

open Sys2Proof.Machine Sys2Proof.Proofs.BlockState Sys2Proof.Proofs.HostPort
  Sys2Proof.Proofs.Rounding Sys2Proof.Proofs.PacketCodec

/-! ### The fields of octet 0 (R170 to R173) -/

theorem leapIndicator_toNat (x : Byte) : (leapIndicator x).toNat = x.toNat / 64 := by
  have hx := x.isLt
  rw [leapIndicator, BitVec.extractLsb'_toNat, Nat.shiftRight_eq_div_pow]
  omega

theorem versionNumber_toNat (x : Byte) : (versionNumber x).toNat = x.toNat / 8 % 8 := by
  rw [versionNumber, BitVec.extractLsb'_toNat, Nat.shiftRight_eq_div_pow]

theorem modeField_toNat (x : Byte) : (modeField x).toNat = x.toNat % 8 :=
  BitVec.extractLsb'_toNat 0 3 x

theorem ofNat_toNat_of_lt {n : Nat} (hn : n < 2 ^ 64) : (BitVec.ofNat 64 n).toNat = n := by
  rw [BitVec.toNat_ofNat, Nat.mod_eq_of_lt hn]

/-- Settles O37, by each field of octet 0 as a number. -/
theorem octetZeroViews : Obligations.OctetZeroViews := by
  intro p b octet0
  have hmode := modeField_toNat (b.inBuf.read 0)
  refine ⟨?_, ?_, ?_, ?_⟩
  · exact (BitVec.toNat_setWidth_of_le (by decide)).trans (leapIndicator_toNat _)
  · exact (BitVec.toNat_setWidth_of_le (by decide)).trans (versionNumber_toNat _)
  · exact (BitVec.toNat_setWidth_of_le (by decide)).trans hmode
  · have hclass : modeClass (modeField (b.inBuf.read 0)) =
        if 1 ≤ octet0 % 8 ∧ octet0 % 8 ≤ 5 then octet0 % 8 else 0 := by rw [modeClass, hmode]
    rw [← hclass]
    refine ofNat_toNat_of_lt ?_
    rw [hclass]
    split <;> omega

/-! ### Stratum, poll, precision and the root fields (R174 to R182) -/

/-- V_POLL_S is exact: a power of two is a binary64 value. -/
theorem pollS_spec (poll : Byte) :
    F64.finite (rn (2 ^ poll.toNat : Nat) 1) = true ∧
      F64.toRat (rn (2 ^ poll.toNat : Nat) 1) = 2 ^ poll.toNat := by
  have hpoll := poll.isLt
  have hrn := isRn_fcvt (2 ^ poll.toNat : Nat)
  have hrep : Representable ((2 : ℚ) ^ poll.toNat) := by
    have h := representable_mul_two_zpow (n := 1) (by decide) (c := poll.toNat) (by omega) (by omega)
    rwa [Nat.cast_one, one_mul, zpow_natCast] at h
  have hcast : (((2 ^ poll.toNat : Nat) : Int) : ℚ) = 2 ^ poll.toNat := by push_cast; rfl
  rw [hcast] at hrn
  exact ⟨(hrn.isNearest hrep.abs_lt).finite, hrn.toRat_eq hrep⟩

theorem stratumClass_lt (x : Byte) : stratumClass x < 4 := by
  unfold stratumClass
  repeat' split
  all_goals decide

/-- Settles O38, by each view's definition and `pollS_spec`. -/
theorem stratumPollPrecisionAndRootViews : Obligations.StratumPollPrecisionAndRootViews := by
  intro p b stratum poll
  obtain ⟨hfin, hval⟩ := pollS_spec (b.inBuf.read 2)
  refine ⟨BitVec.toNat_setWidth_of_le (by decide), ?_, BitVec.toNat_setWidth_of_le (by decide), hfin, hval,
    BitVec.toInt_signExtend_of_le (by decide), ?_, ?_⟩
  · exact ofNat_toNat_of_lt ((stratumClass_lt (b.inBuf.read 1)).trans (by decide))
  · exact (BitVec.toNat_setWidth_of_le (by decide)).trans (be32_toNat_eq_beNat _ _)
  · exact (BitVec.toNat_setWidth_of_le (by decide)).trans (be32_toNat_eq_beNat _ _)

/-! ### The timestamp views (R191, R192) -/

/-- Settles O43, by the field each view reads. -/
theorem timestampViews : Obligations.TimestampViews := by
  intro p b
  have decoded (o : Nat) : dec p (be64 b.inBuf o) = dec p (BitVec.ofNat 64 (beNat b.inBuf o 8)) := by
    rw [be64_eq_ofNat]
  exact ⟨be64_toNat_eq_beNat _ _, be64_toNat_eq_beNat _ _, be64_toNat_eq_beNat _ _,
    be64_toNat_eq_beNat _ _, decoded 16, decoded 24, decoded 32, decoded 40⟩

/-! ### The reference identifier's class (R184, R185) -/

/-- The class as R185 gives it, by the stratum and SRC_IPV. -/
theorem refidClass_eq (x : Byte) (ipv6 : Bool) :
    refidClass x ipv6 =
      if x.toNat ≤ 1 then 0 else if x.toNat ≤ 15 then (if ipv6 then 2 else 1) else 3 := by
  obtain h | h | h | h : x.toNat = 0 ∨ x.toNat = 1 ∨ (1 < x.toNat ∧ x.toNat ≤ 15) ∨ 15 < x.toNat := by
    omega
  · have hclass : stratumClass x = 0 := if_pos h
    rw [if_pos (by omega : x.toNat ≤ 1)]
    simp only [refidClass, hclass]
  · have hclass : stratumClass x = 1 := by rw [stratumClass, if_neg (by omega), if_pos h]
    rw [if_pos (by omega : x.toNat ≤ 1)]
    simp only [refidClass, hclass]
  · have hclass : stratumClass x = 2 := by
      rw [stratumClass, if_neg (by omega), if_neg (by omega), if_pos h.2]
    rw [if_neg (by omega : ¬x.toNat ≤ 1), if_pos h.2]
    simp only [refidClass, hclass]
  · have hclass : stratumClass x = 3 := by
      rw [stratumClass, if_neg (by omega), if_neg (by omega), if_neg (by omega)]
    rw [if_neg (by omega : ¬x.toNat ≤ 1), if_neg (by omega : ¬x.toNat ≤ 15)]
    simp only [refidClass, hclass]

theorem refidClass_lt (x : Byte) (ipv6 : Bool) : refidClass x ipv6 < 4 := by
  rw [refidClass_eq]
  repeat' split
  all_goals decide

theorem refidClassView_toNat (p : Params) (b : Block) :
    (hostRdReg p b 31).toNat = refidClass (b.inBuf.read 1) (srcIpv6 b) :=
  ofNat_toNat_of_lt ((refidClass_lt _ _).trans (by decide))

/-- Settles O40, by `refidClass_eq` and the value of SRC_IPV. -/
theorem referenceIdentifierClassView : Obligations.ReferenceIdentifierClassView := by
  intro p b stratum
  refine ⟨(BitVec.toNat_setWidth_of_le (by decide)).trans (be32_toNat_eq_beNat _ _), ?_⟩
  rw [refidClassView_toNat, refidClass_eq, srcIpv6_eq]
  rcases Nat.mod_two_eq_zero_or_one b.cfg.toNat with h | h
  · rw [h]
    rfl
  · rw [h]
    rfl

/-! ### The rendered reference identifier (R186 to R190) -/

/-- V_REFID_CLASS reads `c` in a block of class `c`. -/
theorem refidClass_of_view {p : Params} {b : Block} {c : Nat} (hc : c < 4)
    (h : hostRdReg p b 31 = BitVec.ofNat 64 c) : refidClass (b.inBuf.read 1) (srcIpv6 b) = c := by
  rw [← refidClassView_toNat p, h, ofNat_toNat_of_lt (hc.trans (by decide))]

section
variable {b : Block} {text : List Byte} (h : renderRefid b.inBuf (srcIpv6 b) = text)
include h

/-- V_REFID_LEN is the rendering's length. -/
theorem refidLenView_eq (p : Params) : hostRdReg p b 32 = BitVec.ofNat 64 text.length := by
  rw [← h]
  rfl

/-- TXT is the rendering, and 0 past it. -/
theorem hostRdTxt_of_render {j : Nat} (hj : j ≤ 15) :
    hostRdTxt b (BitVec.ofNat 32 j) = text.getD j 0 := by
  have hindex : (BitVec.ofNat 32 j).toNat = j := by
    rw [BitVec.toNat_ofNat]
    omega
  rw [hostRdTxt, hindex, if_pos (by omega), txtOctet, h]

theorem hostRdTxt_past_render {j : Nat} (hlen : text.length ≤ j) (hj : j ≤ 15) :
    (hostRdTxt b (BitVec.ofNat 32 j)).toNat = 0 := by
  rw [hostRdTxt_of_render h hj, List.getD_eq_default _ _ hlen]
  rfl

end

theorem getD_renderAscii (m : Memory) {j : Nat} (hj : j < 4) :
    (renderAscii m).getD j 0 = m.read (12 + j) := by
  simp [renderAscii, List.getD, hj]

/-- A hexadecimal digit as R189 gives it. -/
theorem hexDigit_toNat (v : BitVec 4) :
    (hexDigit v).toNat = if v.toNat < 10 then 0x30 + v.toNat else 0x41 + (v.toNat - 10) := by
  have hv := v.isLt
  rw [hexDigit, BitVec.toNat_ofNat]
  split <;> omega

/-- The `j`-th hexadecimal digit of V_REFID, the first the most significant. -/
theorem getD_renderHex (m : Memory) {j : Nat} (hj : j < 8) :
    let digit := beNat m 12 4 / 16 ^ (7 - j) % 16
    ((renderHex m).getD j 0).toNat =
      if digit < 10 then 0x30 + digit else 0x41 + (digit - 10) := by
  have hget : (renderHex m).getD j 0 = hexDigit ((be32 m 12).extractLsb' (28 - 4 * j) 4) := by
    simp [renderHex, List.getD, hj]
  have hdigit : ((be32 m 12).extractLsb' (28 - 4 * j) 4).toNat = beNat m 12 4 / 16 ^ (7 - j) % 16 := by
    have hexp : 28 - 4 * j = 4 * (7 - j) := by omega
    rw [BitVec.extractLsb'_toNat, Nat.shiftRight_eq_div_pow, be32_toNat_eq_beNat, hexp, pow_mul]
    rfl
  rw [hget, hexDigit_toNat, hdigit]

/-- Settles O41: the class fixes the rendering, whose length and octets are known. -/
theorem referenceIdentifierAsciiHexAndNa : Obligations.ReferenceIdentifierAsciiHexAndNa := by
  intro p b txt digit
  refine ⟨fun h => ?_, fun h => ?_, fun h => ?_⟩
  · have hr : renderRefid b.inBuf (srcIpv6 b) = renderAscii b.inBuf := by
      simp only [renderRefid, refidClass_of_view (by decide) h]
    refine ⟨refidLenView_eq hr p, fun j hj => ?_, fun j hlo hhi => hostRdTxt_past_render hr hlo hhi⟩
    rw [← getD_renderAscii _ hj, ← hostRdTxt_of_render hr (by omega)]
  · have hr : renderRefid b.inBuf (srcIpv6 b) = renderHex b.inBuf := by
      simp only [renderRefid, refidClass_of_view (by decide) h]
    refine ⟨refidLenView_eq hr p, fun j hj => ?_, fun j hlo hhi => hostRdTxt_past_render hr hlo hhi⟩
    rw [← getD_renderHex _ hj, ← hostRdTxt_of_render hr (by omega)]
  · have hr : renderRefid b.inBuf (srcIpv6 b) = [0x4E, 0x2F, 0x41] := by
      simp only [renderRefid, refidClass_of_view (by decide) h]
    have octet {j : Nat} (hj : j ≤ 15) := congrArg BitVec.toNat (hostRdTxt_of_render hr hj)
    exact ⟨refidLenView_eq hr p, octet (by decide), octet (by decide), octet (by decide),
      fun j hlo hhi => hostRdTxt_past_render hr hlo hhi⟩

/-! ### The dotted quad (R188) -/

theorem decimalDigit_toNat {n : Nat} (hn : n < 10) :
    (decimalDigit n).toNat = (Nat.digitChar n).toNat := by
  rw [Nat.toNat_digitChar_of_lt_ten hn, decimalDigit, BitVec.toNat_ofNat]
  omega

theorem decimalText_of_lt {n : Nat} (hn : n < 10) : decimalText n = [(decimalDigit n).toNat] := by
  rw [decimalText, Nat.toDigits_of_lt_base hn, decimalDigit_toNat hn]
  rfl

/-- The text of a number is that of its quotient by ten and its last digit. -/
theorem decimalText_of_le {n : Nat} (hn : 10 ≤ n) :
    decimalText n = decimalText (n / 10) ++ [(decimalDigit (n % 10)).toNat] := by
  rw [decimalText, Nat.toDigits_of_base_le (by decide) hn, List.map_append,
    decimalDigit_toNat (Nat.mod_lt n (by decide))]
  rfl

/-- An octet's rendering is its decimal text: one, two or three digits. -/
theorem map_toNat_decimal (v : Byte) : (decimal v).map BitVec.toNat = decimalText v.toNat := by
  have hv := v.isLt
  by_cases h10 : v.toNat < 10
  · rw [decimal, if_pos h10, decimalText_of_lt h10]
    rfl
  by_cases h100 : v.toNat < 100
  · rw [decimal, if_neg h10, if_pos h100, decimalText_of_le (by omega), decimalText_of_lt (by omega)]
    rfl
  · rw [decimal, if_neg h10, if_neg h100, decimalText_of_le (by omega),
      decimalText_of_le (n := v.toNat / 10) (by omega), decimalText_of_lt (by omega),
      Nat.div_div_eq_div_mul]
    rfl

theorem length_decimal (v : Byte) : 1 ≤ (decimal v).length ∧ (decimal v).length ≤ 3 := by
  simp only [decimal]
  split_ifs
  · simp
  · simp
  · simp

/-- Settles O42, by the digits of each octet. -/
theorem referenceIdentifierDottedQuad : Obligations.ReferenceIdentifierDottedQuad := by
  intro p b h text
  have hr : renderRefid b.inBuf (srcIpv6 b) = renderIpv4 b.inBuf := by
    simp only [renderRefid, refidClass_of_view (by decide) h]
  have htext : text = (renderIpv4 b.inBuf).map BitVec.toNat := by
    simp only [text, renderIpv4, List.map_append, List.map_cons, map_toNat_decimal]
    rfl
  have hlen : (renderIpv4 b.inBuf).length = text.length := by rw [htext, List.length_map]
  have hbounds : 7 ≤ (renderIpv4 b.inBuf).length ∧ (renderIpv4 b.inBuf).length ≤ 15 := by
    have digits (i : Nat) := length_decimal (b.inBuf.read i)
    have h12 := digits 12
    have h13 := digits 13
    have h14 := digits 14
    have h15 := digits 15
    simp only [renderIpv4, List.length_append, List.length_cons]
    omega
  refine ⟨?_, hlen ▸ hbounds.1, hlen ▸ hbounds.2, fun j hj => ?_⟩
  · rw [refidLenView_eq hr, hlen, ofNat_toNat_of_lt (by omega)]
  · rw [hostRdTxt_of_render hr hj, htext]
    exact (List.getD_map _ 0 BitVec.toNat).symm

end Sys2Proof.Proofs.Views

/-! The offset calculator's commands of 41_offset_calculator.md: VALID, RTDELAY, CLKOFF and CORRCLK (R231,
R236, R241, R250). -/

namespace Sys2Proof.Proofs.OffsetCalculator

open Sys2Proof.Machine Sys2Proof.Proofs.Scope Sys2Proof.Proofs.Rounding Sys2Proof.Proofs.Timestamp
  Sys2Proof.Proofs.PacketCodec Sys2Proof.Proofs.Views

/-! ### VALID (R231 to R233) -/

theorem headerShort_eq (b : Block) : headerShort b = decide (b.inLen.toNat < 48) := rfl

/-- The checks of VALID as arithmetic on IN_LEN and octet 0. -/
theorem validError_eq (b : Block) :
    validError b =
      if b.inLen.toNat < 48 then .malformedPacket
      else if (b.inBuf.read 0).toNat / 64 = 3 then .clockNotSynchronized
      else if (b.inBuf.read 0).toNat / 8 % 8 = 0 then .invalidVersion
      else if (b.inBuf.read 0).toNat % 8 = 4 ∨ (b.inBuf.read 0).toNat % 8 = 5 then .none
      else .unexpectedMode := by
  simp only [validError, headerShort_eq, decide_eq_true_eq, ← BitVec.toNat_inj,
    leapIndicator_toNat, versionNumber_toNat, modeField_toNat]
  rfl

/-- Settles O31, by `valid_eq` and the branches of `validError_eq`. -/
theorem validReportsTheFirstFailingCheck : Obligations.ValidReportsTheFirstFailingCheck := by
  intro s octet0 err
  have hstatus : statusWord (validError s.block) false false 0 6 = BitVec.ofNat 64 (0x60000 + err) := by
    rw [validError_eq]
    simp only [err, octet0]
    split_ifs <;> rfl
  rw [← hstatus]
  exact exec_of_result (valid_eq s.block)

/-- Settles O32, by `validError_eq`: the checks read IN_LEN and IN[0] only. -/
theorem validReadsLengthAndFirstOctetOnly : Obligations.ValidReadsLengthAndFirstOctetOnly := by
  intro s s' t t' hlen hoctet ht ht'
  have herr : validError s.block = validError s'.block := by
    rw [validError_eq, validError_eq, hlen, hoctet]
  rw [exec_next_iff.1 ht, exec_next_iff.1 ht']
  calc (valid s.block).status
      = statusWord (validError s.block) false false 0 6 := by rw [valid_eq]
    _ = statusWord (validError s'.block) false false 0 6 := by rw [herr]
    _ = (valid s'.block).status := by rw [valid_eq]

/-! ### Results in ticks and in milliseconds (R234, R235) -/

theorem fitsI64_eq (x : Int) : fitsI64 x = decide (-2 ^ 63 ≤ x ∧ x ≤ 2 ^ 63 - 1) :=
  (Bool.decide_and _ _).symm

theorem wrap64_toInt_of_fits {x : Int} (hlo : -2 ^ 63 ≤ x) (hhi : x ≤ 2 ^ 63 - 1) :
    (wrap64 x).toInt = x := by
  rw [wrap64, BitVec.toInt_ofInt]
  exact Int.bmod_eq_of_le (by omega) (by omega)

/-- A quotient of at most 2^64 is rounded to a finite value. -/
theorem isNearest_rn_of_le {a : Int} {b : Nat} (hb : 0 < b) (h : |a| ≤ 2 ^ 64 * b) :
    IsNearest (rn a b) (a / b) := by
  refine isNearest_rn a hb (representable_two_pow_64.abs_lt_of_le ?_)
  rw [abs_div, Nat.abs_cast, div_le_iff₀ (Nat.cast_pos.2 hb)]
  exact_mod_cast h

/-! ### RTDELAY (R236) -/

/-- STATUS of RTDELAY: RANGE, bit 9, when D does not fit. -/
theorem rtdelayStatus_toNat (d : Int) :
    (statusWord .none false (!fitsI64 d) 0 7).toNat =
      0x70000 + (if -2 ^ 63 ≤ d ∧ d ≤ 2 ^ 63 - 1 then 0 else 2 ^ 9) := by
  rw [fitsI64_eq]
  split_ifs with h
  · rw [decide_eq_true h]
    rfl
  · rw [decide_eq_false h]
    rfl

theorem abs_delayTicks_le (b : Block) : |delayTicks b| ≤ 2 ^ 65 := by
  have h0 := b.arg0.le_toInt
  have h0' := b.arg0.toInt_lt
  have h1 := b.arg1.le_toInt
  have h1' := b.arg1.toInt_lt
  have h2 := b.arg2.le_toInt
  have h2' := b.arg2.toInt_lt
  have h3 := b.arg3.le_toInt
  have h3' := b.arg3.toInt_lt
  rw [abs_le, delayTicks]
  simp only [instant]
  omega

/-- Settles O33, by `rtdelay_eq`: D is below 2^65 in magnitude, so its one rounding is to a finite value. -/
theorem rtdelayReturnsTheDelay : Obligations.RtdelayReturnsTheDelay := by
  intro s d
  have hnear : IsNearest (rn d 10000) ((d : ℚ) / 10000) :=
    isNearest_rn_of_le (b := 10000) (by decide) ((abs_delayTicks_le s.block).trans (by decide))
  exact ⟨_, exec_of_result (rtdelay_eq _ _), rfl, BitVec.toInt_ofInt d, hnear, rtdelayStatus_toNat d, rfl⟩

/-! ### CLKOFF (R237 to R241) -/

theorem legFails_default (a b : Word) :
    legFails Config.params a b = decide (10722240000000000 < |a.toInt - b.toInt|) := by
  have hlimit : disparityLimit Config.params = 10722240000000000 := by decide
  rw [legFails, hlimit, Int.abs_eq_natAbs]
  exact decide_eq_decide.2 Nat.cast_lt.symm

theorem transmitZero_default (t3 : Word) :
    transmitZero Config.params t3 = decide (|t3.toInt - (-22089888000000000)| < 10000000) := by
  have hepoch : ntpEpoch Config.params = -22089888000000000 := by decide
  rw [transmitZero, hepoch, Int.abs_eq_natAbs]
  exact decide_eq_decide.2 Nat.cast_lt.symm

/-- S is at most twice the limit when both legs pass (R247). -/
theorem abs_offsetTicks_le {b : Block} (h1 : |b.arg1.toInt - b.arg0.toInt| ≤ 10722240000000000)
    (h2 : |b.arg2.toInt - b.arg3.toInt| ≤ 10722240000000000) :
    |offsetTicks b| ≤ 2 * 10722240000000000 :=
  (abs_add_le _ _).trans ((add_le_add h1 h2).trans_eq (two_mul _).symm)

/-- Settles O34, by the four cases of CLKOFF: each satisfies one clause's premises and contradicts those of
the others. -/
theorem clkoffChecksThenReturnsTheOffset : Obligations.ClkoffChecksThenReturnsTheOffset := by
  intro s
  have hcases := clkoff_cases Config.params s.block
  simp only [legFails_default, transmitZero_default, decide_eq_true_eq, decide_eq_false_iff_not,
    not_lt] at hcases
  obtain ⟨h1, hres⟩ | ⟨h1, h2, hres⟩ | ⟨h1, h2, h3, hres⟩ | ⟨h1, h2, h3, hres⟩ := hcases
  · exact ⟨fun _ => exec_of_result hres, fun h => absurd h1 h.not_gt, fun h => absurd h1 h.not_gt,
      fun h => absurd h1 h.not_gt⟩
  · exact ⟨fun h => absurd h h1.not_gt, fun _ _ => exec_of_result hres, fun _ h => absurd h2 h.not_gt,
      fun _ h => absurd h2 h.not_gt⟩
  · exact ⟨fun h => absurd h h1.not_gt, fun _ h => absurd h h2.not_gt, fun _ _ _ => exec_of_result hres,
      fun _ _ h => absurd h3 h.not_gt⟩
  · refine ⟨fun h => absurd h h1.not_gt, fun _ h => absurd h h2.not_gt, fun _ _ h => absurd h h3.not_gt,
      fun _ _ _ => ⟨_, exec_of_result hres, rfl, ?_, ?_, rfl, rfl⟩⟩
    · obtain ⟨hlo, hhi⟩ := abs_le.1 (abs_offsetTicks_le h1 h2)
      exact wrap64_toInt_of_fits (by omega) (by omega)
    · have hnear := isNearest_rn_of_le (b := 2 * 10000) (by decide)
        ((abs_offsetTicks_le h1 h2).trans (by decide))
      rwa [Nat.cast_mul] at hnear

/-! ### CORRCLK (R250) -/

/-- A pattern is a NaN or an infinity when its exponent field is all ones. -/
theorem finite_eq (x : F64) : F64.finite x = decide (x.toNat / 2 ^ 52 % 2 ^ 11 ≠ 2047) := by
  rw [F64.finite, F64.exponentField, BitVec.extractLsb'_toNat, Nat.shiftRight_eq_div_pow]

/-- R18 names one integer: two would tie, so both would be even, and they are at most 1 apart. -/
theorem isNearestInt_unique {j k : Int} {x : ℚ} (hj : IsNearestInt j x) (hk : IsNearestInt k x) :
    j = k := by
  by_contra hne
  have htie : |(j : ℚ) - x| = |(k : ℚ) - x| := le_antisymm (dist_le_dist hj k) (dist_le_dist hk j)
  have hjeven : j % 2 = 0 := even_of_dist_eq hj (Ne.symm hne) htie
  have hkeven : k % 2 = 0 := even_of_dist_eq hk hne htie.symm
  have hapart : |(j : ℚ) - k| ≤ 1 := by
    have htri := abs_sub_le (j : ℚ) x k
    rw [abs_sub_comm x] at htri
    linarith [hj.nearest, hk.nearest]
  have hapart' : |j - k| ≤ 1 := by exact_mod_cast hapart
  obtain ⟨hlo, hhi⟩ := abs_le.1 hapart'
  omega

theorem isNearestInt_correctionTicks (x : F64) :
    IsNearestInt (correctionTicks Config.params x) (F64.toRat x * 10000) := by
  have h := integerRoundingIsToNearestEven (F64.num x * ticksPerMs Config.params) _ (F64.den_pos x)
  rwa [Int.cast_mul, mul_div_right_comm, ← F64.toRat_eq] at h

/-- Settles O36, by the two cases of CORRCLK; the rounded offset is the only nearest integer. -/
theorem corrclkAddsTheRoundedOffset : Obligations.CorrclkAddsTheRoundedOffset := by
  intro s
  have hk {k : Int} (h : IsNearestInt k (F64.toRat s.block.arg1 * 10000)) :
      correctionTicks Config.params s.block.arg1 = k :=
    isNearestInt_unique (isNearestInt_correctionTicks _) h
  have hcases := corrclk_cases Config.params s.block
  simp only [finite_eq, fitsI64_eq, instant, decide_eq_true_eq, decide_eq_false_iff_not] at hcases
  obtain ⟨hfails, hres⟩ | ⟨hfin, ⟨hlo, hhi⟩, hres⟩ := hcases
  · refine ⟨fun _ => exec_of_result hres, fun hfin k hnear =>
      ⟨fun _ => exec_of_result hres, fun hlo hhi => ?_⟩⟩
    rw [hk hnear] at hfails
    exact absurd ⟨hlo, hhi⟩ (hfails.resolve_left (not_not.2 hfin))
  · refine ⟨fun hinf => absurd hinf hfin, fun _ k hnear => ?_⟩
    obtain rfl := hk hnear
    exact ⟨fun hout => by omega,
      fun _ _ => ⟨_, exec_of_result hres, rfl, wrap64_toInt_of_fits hlo hhi, rfl, rfl⟩⟩

end Sys2Proof.Proofs.OffsetCalculator

/-! The errors of 60_exceptions.md: how a command ends and what STATUS says of it (R284), and what an error
leaves as it was (R285). -/

namespace Sys2Proof.Proofs.Exceptions

open Sys2Proof.Machine Sys2Proof.Proofs.BlockState Sys2Proof.Proofs.Encoding
  Sys2Proof.Proofs.OffsetCalculator

/-! ### The code and the flags of a command -/

theorem eq_opc_of_operationOf {opc imm8 : BitVec 8} {i : Instr} (h : operationOf opc imm8 = some i) :
    opc = i.opc := by
  unfold operationOf at h
  split at h
  case h_10 => exact absurd h (Option.some_ne_none i).symm
  all_goals
    cases h
    exact BitVec.eq_of_toNat_eq ‹_›

/-- A word that decodes carries the code of its command (30_encoding.md R112). -/
theorem opcField_of_decode_ok {w : Word} {i : Instr} (h : decode w = .ok i) : opcField w = i.opc := by
  unfold decode at h
  split at h
  · cases h
  · split at h
    · cases h
    · split at h
      · cases h
      · cases h
        exact eq_opc_of_operationOf ‹_›

/-- CLAMP as the end of a command writes it. -/
def clampFlag (i : Instr) (b : Block) : Bool :=
  match i with
  | .buildreq | .encts => (enc Config.params b.arg0).clamp
  | .dects | .dectsb _ | .dechdr | .valid | .rtdelay | .clkoff | .corrclk => false

/-- RANGE as the end of a command writes it. -/
def rangeFlag (i : Instr) (b : Block) : Bool :=
  match i with
  | .rtdelay => !fitsI64 (delayTicks b)
  | .buildreq | .encts | .dects | .dectsb _ | .dechdr | .valid | .clkoff | .corrclk => false

theorem clampFlag_iff (i : Instr) (b : Block) :
    clampFlag i b = true ↔ (i = .buildreq ∨ i = .encts) ∧ (enc Config.params b.arg0).clamp = true := by
  cases i <;> simp [clampFlag]

theorem rangeFlag_iff (i : Instr) (b : Block) :
    rangeFlag i b = true ↔ i = .rtdelay ∧ ¬(-2 ^ 63 ≤ delayTicks b ∧ delayTicks b < 2 ^ 63) := by
  cases i with
  | rtdelay =>
    simp only [rangeFlag, fitsI64_eq, Int.le_sub_one_iff, Bool.not_eq_true', decide_eq_false_iff_not,
      true_and]
  | _ => simp [rangeFlag]

/-! ### How a command ends (00_scope.md R20, R21) -/

/-- The errors that carry no information: VALID's, then those of the other commands and of the decoder. -/
def plainErrors : List ErrKind :=
  [.malformedPacket, .clockNotSynchronized, .invalidVersion, .unexpectedMode] ++
    [.invalidTransmitTimestamp, .rangeError, .illegalCommand]

/-- The block in which a command of code `opc` ends: it completes, with the two flags; or it raises an
error, with both flags clear. -/
inductive Ended (opc : BitVec 8) (b : Block) : (clamp range : Bool) → Block → Prop where
  | completed {clamp range : Bool} {b' : Block}
      (hstatus : b'.status = statusWord .none clamp range 0 opc)
      (herrA : b'.errA = b.errA) (herrB : b'.errB = b.errB) : Ended opc b clamp range b'
  | raised {err : ErrKind} (herr : err ∈ plainErrors) :
      Ended opc b false false { b with status := statusWord err false false 0 opc }
  | disparity {leg : BitVec 2} (hleg : leg = 1 ∨ leg = 2) (first second : Word) :
      Ended opc b false false { b with
        errA := first
        errB := second
        status := statusWord .clockDisparityTooLarge false false leg opc }

/-- A command ends as its result equation says. -/
theorem Ended.of_eq {opc : BitVec 8} {b b' result : Block} {clamp range : Bool} (heq : result = b')
    (h : Ended opc b clamp range b') : Ended opc b clamp range result := heq ▸ h

/-- How each command ends. -/
theorem ended_result (i : Instr) (b : Block) :
    Ended i.opc b (clampFlag i b) (rangeFlag i b) (Instr.result i b) := by
  cases i with
  | buildreq => exact .of_eq (buildreq_eq Config.params b) (.completed rfl rfl rfl)
  | encts => exact .of_eq (encts_eq Config.params b) (.completed rfl rfl rfl)
  | dects => exact .of_eq (dects_eq Config.params b) (.completed rfl rfl rfl)
  | rtdelay => exact .of_eq (rtdelay_eq Config.params b) (.completed rfl rfl rfl)
  | dectsb offset =>
    obtain ⟨-, heq⟩ | ⟨-, heq⟩ := dectsb_cases Config.params b offset
    · exact .of_eq heq (.raised (by decide))
    · exact .of_eq heq (.completed rfl rfl rfl)
  | dechdr =>
    obtain ⟨-, heq⟩ | ⟨-, heq⟩ := dechdr_cases Config.params b
    · exact .of_eq heq (.raised (by decide))
    · exact .of_eq heq (.completed rfl rfl rfl)
  | valid =>
    refine .of_eq (valid_eq b) ?_
    obtain hnone | herr := List.mem_cons.1 (validError_mem b)
    · rw [hnone]
      exact .completed rfl rfl rfl
    · exact .raised (List.mem_append_left _ herr)
  | clkoff =>
    obtain ⟨-, heq⟩ | ⟨-, -, heq⟩ | ⟨-, -, -, heq⟩ | ⟨-, -, -, heq⟩ := clkoff_cases Config.params b
    · exact .of_eq heq (.disparity (.inl rfl) _ _)
    · exact .of_eq heq (.disparity (.inr rfl) _ _)
    · exact .of_eq heq (.raised (by decide))
    · exact .of_eq heq (.completed rfl rfl rfl)
  | corrclk =>
    obtain ⟨-, heq⟩ | ⟨-, -, heq⟩ := corrclk_cases Config.params b
    · exact .of_eq heq (.raised (by decide))
    · exact .of_eq heq (.completed rfl rfl rfl)

theorem ended_raiseIllegal (w : Word) (b : Block) :
    Ended (opcField w) b false false (raiseIllegal w b) := .raised (by decide)

/-- A CMD write, of a legal word or an illegal one, ends a command, and which word sets which flag. -/
theorem ended_of_writesCmd {s t : State} {w : Word} (hw : s.WritesCmd w) (ht : step s = .next t) :
    ∃ clamp range, Ended (opcField w) s.block clamp range t.block ∧
      (clamp = true ↔ (decode w = .ok .buildreq ∨ decode w = .ok .encts) ∧
        (enc Config.params s.block.arg0).clamp = true) ∧
      (range = true ↔ decode w = .ok .rtdelay ∧
        ¬(-2 ^ 63 ≤ delayTicks s.block ∧ delayTicks s.block < 2 ^ 63)) := by
  rw [step_of_writesCmd hw] at ht
  cases hd : decode w with
  | ok i =>
    rw [command_ok hd] at ht
    rw [exec_next_iff.1 ht, opcField_of_decode_ok hd]
    simp only [Except.ok.injEq]
    exact ⟨_, _, ended_result i s.block, clampFlag_iff i s.block, rangeFlag_iff i s.block⟩
  | error e =>
    rw [command_error hd, Host.Outcome.next.injEq] at ht
    exact ⟨false, false, ht ▸ ended_raiseIllegal w s.block, by simp, by simp⟩

/-! ### STATUS at the end of a command (R284), and the frame of an error (R285) -/

theorem plainErrors_code : ∀ err ∈ plainErrors,
    (err.code.toNat ≤ 6 ∨ err.code.toNat = 8 ∨ err.code.toNat = 9) ∧ err.code.toNat ≠ 5 := by decide

section
variable {w : Word} {b b' : Block} {clamp range : Bool}

/-- STATUS after a command, and what is written only with which error. -/
theorem Ended.status (h : Ended (opcField w) b clamp range b') :
    ∃ err leg : Nat,
      b'.status.toNat = err + 2 ^ 8 * clamp.toNat + 2 ^ 9 * range.toNat + 2 ^ 10 * leg +
        2 ^ 16 * (w.toNat % 256) ∧
      (err ≤ 6 ∨ err = 8 ∨ err = 9) ∧ leg ≤ 2 ∧ (leg ≠ 0 ↔ err = 5) ∧
      (err ≠ 0 → b'.res0 = b.res0 ∧ b'.res1 = b.res1 ∧ b'.res2 = b.res2 ∧ b'.res3 = b.res3) ∧
      (err ≠ 5 → b'.errA = b.errA ∧ b'.errB = b.errB) := by
  rw [← opcField_toNat]
  cases h with
  | completed hstatus herrA herrB =>
    exact ⟨0, 0, hstatus ▸ statusWord_toNat .none clamp range 0 _, by decide, by decide, by decide,
      fun h => absurd rfl h, fun _ => ⟨herrA, herrB⟩⟩
  | @raised err herr =>
    obtain ⟨hcode, hne⟩ := plainErrors_code err herr
    exact ⟨err.code.toNat, 0, statusWord_toNat err false false 0 _, hcode, by decide,
      ⟨fun h => absurd rfl h, fun h => absurd h hne⟩, fun _ => ⟨rfl, rfl, rfl, rfl⟩, fun _ => ⟨rfl, rfl⟩⟩
  | @disparity leg hleg first second =>
    have hnum : leg.toNat ≤ 2 ∧ leg.toNat ≠ 0 := by
      obtain rfl | rfl := hleg <;> decide
    exact ⟨5, leg.toNat, statusWord_toNat .clockDisparityTooLarge false false leg _, by decide, hnum.1,
      iff_of_true hnum.2 rfl, fun _ => ⟨rfl, rfl, rfl, rfl⟩, fun h => absurd rfl h⟩

/-- A command whose STATUS reports an error wrote nothing but STATUS, ERR_A and ERR_B. -/
theorem Ended.frame_of_error {opc : BitVec 8} (h : Ended opc b clamp range b')
    (herr : b'.status.toNat % 256 ≠ 0) :
    b' = { b with status := b'.status, errA := b'.errA, errB := b'.errB } := by
  cases h with
  | completed hstatus =>
    have hzero : (statusErr b'.status).toNat = 0 := by rw [hstatus, statusErr_statusWord]; rfl
    exact absurd (statusErr_toNat b'.status ▸ hzero) herr
  | raised => rfl
  | disparity => rfl

end

/-- Settles O6, by the three ways a command ends. -/
theorem commandEndWritesStatus : Obligations.CommandEndWritesStatus := by
  intro s t w hw ht
  obtain ⟨clamp, range, hend, hclamp, hrange⟩ := ended_of_writesCmd hw ht
  obtain ⟨err, leg, hstatus, herr, hleg, hlegErr, hresults, hinfo⟩ := hend.status
  exact ⟨err, clamp.toNat, range.toNat, leg, hstatus, herr, clamp.toNat_le, range.toNat_le, hleg,
    Bool.toNat_eq_one.trans hclamp, Bool.toNat_eq_one.trans hrange, hlegErr, hresults, hinfo⟩

/-- Settles O9: a command that completes reports no error, and one that raises an error writes no other
field. -/
theorem errorLeavesOperandsAndResults : Obligations.ErrorLeavesOperandsAndResults := by
  intro s t w hw ht herr
  obtain ⟨clamp, range, hend, -, -⟩ := ended_of_writesCmd hw ht
  exact hend.frame_of_error herr

end Sys2Proof.Proofs.Exceptions

/-! Reset, 70_reset_and_hazards.md: `HostReset` puts the block into its reset state from any other (R310). -/

namespace Sys2Proof.Proofs.Reset

open Sys2Proof.Machine

/-- A RESET statement completes: the host moves past it and the block is the reset one. -/
theorem step_reset {s : State} (h : s.stmt = some .reset) :
    step s = .next (s.advance.setBlock Block.reset) := step_some h

theorem reset_inBuf_read (i : Nat) : Block.reset.inBuf.read i = 0 := Memory.read_nil i

theorem reset_outBuf_read (i : Nat) : Block.reset.outBuf.read i = 0 := Memory.read_nil i

/-- Settles O53, by `step_reset`: the registers of the reset block are 0, and so is every octet of IN and
OUT. -/
theorem hostResetClearsTheBlock : Obligations.HostResetClearsTheBlock := fun s hs =>
  ⟨s.advance.setBlock Block.reset, step_reset hs, State.setBlock_block .., rfl, rfl, rfl, rfl, rfl, rfl,
    rfl, rfl, rfl, rfl, rfl, rfl, rfl, reset_inBuf_read, reset_outBuf_read⟩

end Sys2Proof.Proofs.Reset

/-! The command word again, 30_encoding.md section 1: a word decodes to a command exactly when its three
fields are the command's, and a word is its three fields; so the encoder and the decoder are inverse. -/

namespace Sys2Proof.Proofs.CommandWord

open Sys2Proof.Machine Sys2Proof.Laws
  Sys2Proof.Proofs.Encoding Sys2Proof.Proofs.Exceptions

/-- IMM8 of a command's word: DECTSB's offset, 0 for every other command (R113). -/
def immediate : Instr → Nat
  | .dectsb offset => offset
  | .buildreq | .encts | .dects | .dechdr | .valid | .rtdelay | .clkoff | .corrclk => 0

/-- The three fields of `w` are those of the command `i`. -/
structure FieldsOf (w : Word) (i : Instr) : Prop where
  rsv : rsvField w = 0#48
  opc : opcField w = i.opc
  imm8 : (imm8Field w).toNat = immediate i

/-- The opcode map at a command's own code. -/
theorem operationOf_opc {i : Instr} {imm8 : BitVec 8} (h : imm8.toNat = immediate i) :
    operationOf i.opc imm8 = some i := by
  cases i with
  | dectsb offset => exact congrArg (some <| Instr.dectsb ·) h
  | _ => rfl

theorem immediate_of_operationOf {opc imm8 : BitVec 8} {i : Instr}
    (h : operationOf opc imm8 = some i) (hzero : opc = 4 ∨ imm8 = 0) : imm8.toNat = immediate i := by
  obtain rfl := eq_opc_of_operationOf h
  cases i with
  | dectsb offset => exact Instr.dectsb.inj (Option.some.inj h)
  | _ => exact congrArg BitVec.toNat (hzero.resolve_left (by decide))

/-- Only DECTSB has a nonzero IMM8. -/
theorem immediate_eq_zero {i : Instr} (h : i.opc ≠ 4) : immediate i = 0 := by
  cases i with
  | dectsb offset => exact absurd rfl h
  | _ => rfl

theorem FieldsOf.decode_eq {w : Word} {i : Instr} (h : FieldsOf w i) : decode w = .ok i := by
  have hop : operationOf (opcField w) (imm8Field w) = some i := h.opc ▸ operationOf_opc h.imm8
  rw [decode, if_neg (not_not.2 h.rsv), hop]
  refine if_neg fun ⟨hopc, himm⟩ => himm (BitVec.eq_of_toNat_eq ?_)
  rw [h.imm8, immediate_eq_zero (h.opc ▸ hopc)]
  rfl

/-- The checks of R111 fix the fields of a word that passes them. -/
theorem FieldsOf.of_decode {w : Word} {i : Instr} (h : decode w = .ok i) : FieldsOf w i := by
  have hopc := opcField_of_decode_ok h
  unfold decode at h
  split at h
  · cases h
  · next hrsv =>
    split at h
    · cases h
    · next hop =>
      split at h
      · cases h
      · next himm =>
        cases h
        exact ⟨not_not.1 hrsv, hopc, immediate_of_operationOf hop (or_iff_not_and_not.2 himm)⟩

/-- The word the encoder makes of a well-formed command has the command's fields. -/
theorem FieldsOf.of_encode {i : Instr} (h : i.wellFormed = true) : FieldsOf (encode i) i := by
  cases i with
  | dectsb offset =>
    obtain ⟨hrsv, hopc, himm⟩ := EncodeFields.dectsb offset h
    exact ⟨hrsv, hopc, himm⟩
  | _ => exact ⟨rfl, rfl, rfl⟩

/-- Settles O1: the encoder's word has its command's fields, and the decoder reads the command off them. -/
theorem decodeOfEncodeIsTheCommand : Obligations.DecodeOfEncodeIsTheCommand :=
  fun _ h => (FieldsOf.of_encode h).decode_eq

/-- A word is its three fields. -/
theorem FieldsOf.unique {w w' : Word} {i : Instr} (h : FieldsOf w i) (h' : FieldsOf w' i) : w = w' := by
  have hrsv : (rsvField w).toNat = (rsvField w').toNat := by rw [h.rsv, h'.rsv]
  have hopc : (opcField w).toNat = (opcField w').toNat := by rw [h.opc, h'.opc]
  have himm : (imm8Field w).toNat = (imm8Field w').toNat := by rw [h.imm8, h'.imm8]
  rw [rsvField_toNat, rsvField_toNat] at hrsv
  rw [opcField_toNat, opcField_toNat] at hopc
  rw [imm8Field_toNat, imm8Field_toNat] at himm
  exact BitVec.eq_of_toNat_eq (by omega)

/-- A command whose immediate fits in IMM8 is well-formed. -/
theorem FieldsOf.wellFormed {w : Word} {i : Instr} (h : FieldsOf w i) : i.wellFormed = true := by
  cases i with
  | dectsb offset => exact decide_eq_true (h.imm8.symm.trans_lt (imm8Field w).isLt)
  | _ => rfl

/-- Settles O2: the word and the encoder's word have the same fields. -/
theorem encodeOfDecodeIsTheWord : Obligations.EncodeOfDecodeIsTheWord := by
  intro w i hd
  have hw := FieldsOf.of_decode hd
  exact ⟨hw.wellFormed, (FieldsOf.of_encode hw.wellFormed).unique hw⟩

/-- Settles O3, by running the decoder on each word of the list. -/
theorem tableWordsDecodeAsListed : Obligations.TableWordsDecodeAsListed := by
  unfold Obligations.TableWordsDecodeAsListed
  decide

/-- Settles O5: `step_of_decode_ok`, with the host moved on written out. -/
theorem stepRunsTheDecodedCommand : Obligations.StepRunsTheDecodedCommand :=
  fun _ _ _ hw hd => step_of_decode_ok hw hd

end Sys2Proof.Proofs.CommandWord

/-! What each command may write and which errors it may raise (10_state.md section 2, 60_exceptions.md
section 1), and from both the machine's invariant. -/

namespace Sys2Proof.Proofs.Invariant

open Sys2Proof.Machine Sys2Proof.Proofs.HostPort Sys2Proof.Proofs.Encoding Sys2Proof.Proofs.PacketCodec
  Sys2Proof.Proofs.Exceptions

/-! ### The errors of each command (60_exceptions.md R281) -/

/-- The error and LEG each command can end with. -/
def endsOf : Instr → List (ErrKind × BitVec 2)
  | .buildreq | .encts | .dects | .rtdelay => [(.none, 0)]
  | .dectsb _ | .dechdr => [(.none, 0), (.malformedPacket, 0)]
  | .valid => [(.none, 0), (.malformedPacket, 0), (.clockNotSynchronized, 0), (.invalidVersion, 0),
      (.unexpectedMode, 0)]
  | .clkoff => [(.none, 0), (.clockDisparityTooLarge, 1), (.clockDisparityTooLarge, 2),
      (.invalidTransmitTimestamp, 0)]
  | .corrclk => [(.none, 0), (.rangeError, 0)]

/-- STATUS after each command, whole. -/
theorem status_result (i : Instr) (b : Block) :
    ∃ e ∈ endsOf i,
      (Instr.result i b).status = statusWord e.1 (clampFlag i b) (rangeFlag i b) e.2 i.opc := by
  have completes : (ErrKind.none, 0) ∈ endsOf i := by cases i <;> exact List.mem_cons_self
  cases i with
  | buildreq => exact ⟨_, completes, congrArg Block.status (buildreq_eq Config.params b)⟩
  | encts => exact ⟨_, completes, congrArg Block.status (encts_eq Config.params b)⟩
  | dects => exact ⟨_, completes, congrArg Block.status (dects_eq Config.params b)⟩
  | rtdelay => exact ⟨_, completes, congrArg Block.status (rtdelay_eq Config.params b)⟩
  | dectsb offset =>
    obtain ⟨-, heq⟩ | ⟨-, heq⟩ := dectsb_cases Config.params b offset
    · exact ⟨(.malformedPacket, 0), by simp [endsOf], congrArg Block.status heq⟩
    · exact ⟨_, completes, congrArg Block.status heq⟩
  | dechdr =>
    obtain ⟨-, heq⟩ | ⟨-, heq⟩ := dechdr_cases Config.params b
    · exact ⟨(.malformedPacket, 0), by simp [endsOf], congrArg Block.status heq⟩
    · exact ⟨_, completes, congrArg Block.status heq⟩
  | valid =>
    exact ⟨(validError b, 0), List.mem_map_of_mem (f := (·, 0)) (validError_mem b),
      congrArg Block.status (valid_eq b)⟩
  | clkoff =>
    obtain ⟨-, heq⟩ | ⟨-, -, heq⟩ | ⟨-, -, -, heq⟩ | ⟨-, -, -, heq⟩ := clkoff_cases Config.params b
    · exact ⟨(.clockDisparityTooLarge, 1), by simp [endsOf], congrArg Block.status heq⟩
    · exact ⟨(.clockDisparityTooLarge, 2), by simp [endsOf], congrArg Block.status heq⟩
    · exact ⟨(.invalidTransmitTimestamp, 0), by simp [endsOf], congrArg Block.status heq⟩
    · exact ⟨_, completes, congrArg Block.status heq⟩
  | corrclk =>
    obtain ⟨-, heq⟩ | ⟨-, -, heq⟩ := corrclk_cases Config.params b
    · exact ⟨(.rangeError, 0), by simp [endsOf], congrArg Block.status heq⟩
    · exact ⟨_, completes, congrArg Block.status heq⟩

/-- STATUS.ERR after a command is the code of one of its errors. -/
theorem errCode_of_exec {i : Instr} {s t : State} (h : exec i s = .next t) :
    ∃ e ∈ endsOf i, t.block.status.toNat % 256 = e.1.code.toNat := by
  obtain ⟨e, he, hstatus⟩ := status_result i s.block
  refine ⟨e, he, ?_⟩
  rw [exec_next_iff.1 h, State.setBlock_block, hstatus, ← statusErr_statusWord]
  exact (statusErr_toNat _).symm

/-- A block in which a command ends with STATUS.ERR = `code` gives a state in which it does. -/
theorem exists_exec_of_result {i : Instr} {b : Block} {code : Nat}
    (h : (Instr.result i b).status.toNat % 256 = code) :
    ∃ s t : State, exec i s = .next t ∧ t.block.status.toNat % 256 = code :=
  ⟨State.reset.setBlock b, _, exec_eq i _, h⟩

/-- A word whose RSV is 1 is illegal, whatever its operation code (30_encoding.md R114). -/
theorem exists_illegal_word {opc : Nat} (h : opc < 256) :
    ∃ w : Word, w.toNat % 256 = opc ∧ ∀ i : Instr, decode w ≠ .ok i := by
  have hw : (BitVec.ofNat 64 (65536 + opc)).toNat = 65536 + opc := by
    rw [BitVec.toNat_ofNat]
    omega
  obtain ⟨e, he⟩ := decode_eq_error (w := BitVec.ofNat 64 (65536 + opc)) (.inl (by omega))
  exact ⟨BitVec.ofNat 64 (65536 + opc), by omega, fun i hi => by cases he.symm.trans hi⟩

/-- A block that has received a header whose first octet is `octet0`. -/
def received (octet0 : Byte) : Block :=
  { Block.reset with inLen := 48, inBuf := Memory.write [] 0 octet0 }

/-- A block whose four instants are the NTP epoch. -/
def atEpoch : Block :=
  let epoch := wrap64 (ntpEpoch Config.params)
  { Block.reset with arg0 := epoch, arg1 := epoch, arg2 := epoch, arg3 := epoch }

/-- Settles O8: no other code by `endsOf`, and a block for each code that is raised. -/
theorem errorsOfEachCommand : Obligations.ErrorsOfEachCommand := by
  refine ⟨fun i s t h => ?_, ?_, fun opc => exists_illegal_word⟩
  · obtain ⟨e, he, hcode⟩ := errCode_of_exec h
    simp only [hcode]
    cases i with
    | buildreq | encts | dects | rtdelay =>
      exact (by decide : ∀ e ∈ endsOf .buildreq, e.1.code.toNat = 0) e he
    | dectsb _ | dechdr =>
      exact (by decide : ∀ e ∈ endsOf .dechdr, e.1.code.toNat = 0 ∨ e.1.code.toNat = 1) e he
    | valid => exact (by decide : ∀ e ∈ endsOf .valid, e.1.code.toNat ≤ 4) e he
    | clkoff =>
      exact (by decide : ∀ e ∈ endsOf .clkoff,
        e.1.code.toNat = 0 ∨ e.1.code.toNat = 5 ∨ e.1.code.toNat = 6) e he
    | corrclk =>
      exact (by decide : ∀ e ∈ endsOf .corrclk, e.1.code.toNat = 0 ∨ e.1.code.toNat = 9) e he
  · simp only [List.forall_mem_cons, List.not_mem_nil, false_imp_iff, implies_true, and_true]
    refine ⟨?_, ?_, ?_, ?_, ?_, ?_, ?_, ?_, ?_⟩
    · exact exists_exec_of_result (b := Block.reset) (by decide)
    · exact exists_exec_of_result (b := Block.reset) (by decide)
    · exact exists_exec_of_result (b := Block.reset) (by decide)
    · exact exists_exec_of_result (b := received 0xC0) (by decide)
    · exact exists_exec_of_result (b := received 0x00) (by decide)
    · exact exists_exec_of_result (b := received 0x08) (by decide)
    · exact exists_exec_of_result (b := { Block.reset with arg1 := wrap64 (2 ^ 62) }) (by decide)
    · exact exists_exec_of_result (b := atEpoch) (by decide)
    · exact exists_exec_of_result (b := { Block.reset with arg1 := BitVec.ofNat 64 infPattern }) (by decide)

/-! ### What a command may write (10_state.md R36 to R38, R40 to R42) -/

/-- The fields of `b'` that the command `i` may not have written are those of `b`. -/
structure WritesOnly (i : Instr) (b b' : Block) : Prop where
  cfg : b'.cfg = b.cfg
  inLen : b'.inLen = b.inLen
  arg0 : b'.arg0 = b.arg0
  arg1 : b'.arg1 = b.arg1
  arg2 : b'.arg2 = b.arg2
  arg3 : b'.arg3 = b.arg3
  inBuf : b'.inBuf = b.inBuf
  outBuf : i ≠ .buildreq → b'.outBuf = b.outBuf
  errInfo : i ≠ .clkoff → b'.errA = b.errA ∧ b'.errB = b.errB
  res0 : i = .valid → b'.res0 = b.res0
  res1 : i ≠ .dechdr → i ≠ .rtdelay → i ≠ .clkoff → b'.res1 = b.res1
  res23 : i ≠ .dechdr → b'.res2 = b.res2 ∧ b'.res3 = b.res3

theorem writesOnly_result (i : Instr) (b : Block) : WritesOnly i b (Instr.result i b) := by
  cases i with
  | buildreq => simp only [Instr.result, buildreq_eq]; constructor <;> simp
  | encts => simp only [Instr.result, encts_eq]; constructor <;> simp
  | dects => simp only [Instr.result, dects_eq]; constructor <;> simp
  | valid => simp only [Instr.result, valid_eq]; constructor <;> simp
  | rtdelay => simp only [Instr.result, rtdelay_eq]; constructor <;> simp
  | dectsb offset =>
    obtain ⟨-, heq⟩ | ⟨-, heq⟩ := dectsb_cases Config.params b offset
    all_goals simp only [Instr.result, heq]; constructor <;> simp
  | dechdr =>
    obtain ⟨-, heq⟩ | ⟨-, heq⟩ := dechdr_cases Config.params b
    all_goals simp only [Instr.result, heq]; constructor <;> simp
  | clkoff =>
    obtain ⟨-, heq⟩ | ⟨-, -, heq⟩ | ⟨-, -, -, heq⟩ | ⟨-, -, -, heq⟩ := clkoff_cases Config.params b
    all_goals simp only [Instr.result, heq]; constructor <;> simp
  | corrclk =>
    obtain ⟨-, heq⟩ | ⟨-, -, heq⟩ := corrclk_cases Config.params b
    all_goals simp only [Instr.result, heq]; constructor <;> simp

theorem outBuf_buildreq (b : Block) :
    (Instr.result .buildreq b).outBuf =
      b.outBuf.writeList 0 (requestOctets (enc Config.params b.arg0).raw) := by
  simp only [Instr.result, buildreq_eq]

/-- Settles O10, by `writesOnly_result`. -/
theorem commandsWriteOnlyWhatTheyName : Obligations.CommandsWriteOnlyWhatTheyName := by
  intro i s t h
  obtain rfl := exec_next_iff.1 h
  have hw := writesOnly_result i s.block
  exact ⟨rfl, hw.cfg, hw.inLen, hw.arg0, hw.arg1, hw.arg2, hw.arg3, hw.inBuf, hw.outBuf, hw.errInfo,
    hw.res0, hw.res1, hw.res23⟩

/-! ### STATUS words a command can leave (60_exceptions.md R280, R281, R284) -/

/-- Which operation codes an error goes with: every one for IllegalCommand, none for the unreachable
kind. -/
def RaisedWith (opc : BitVec 8) : ErrKind → Prop
  | .none => 1 ≤ opc.toNat ∧ opc.toNat ≤ 9
  | .malformedPacket => opc = 4 ∨ opc = 5 ∨ opc = 6
  | .clockNotSynchronized | .invalidVersion | .unexpectedMode => opc = 6
  | .clockDisparityTooLarge | .invalidTransmitTimestamp => opc = 8
  | .unknownEnumValue => False
  | .illegalCommand => True
  | .rangeError => opc = 9

theorem code_injective : Function.Injective ErrKind.code :=
  Function.LeftInverse.injective (g := fun c => ErrKind.ofNat c.toNat) fun err => by cases err <;> rfl

/-- LEG is 1 or 2 with ClockDisparityTooLarge and 0 with any other error (R284). -/
def LegFits (err : ErrKind) (leg : BitVec 2) : Prop :=
  (err = .clockDisparityTooLarge → leg = 1 ∨ leg = 2) ∧ (err ≠ .clockDisparityTooLarge → leg = 0)

/-- A STATUS word whose flags fit its error and whose error fits its operation code is legal. -/
theorem statusLegal_statusWord {err : ErrKind} {clamp range : Bool} {leg : BitVec 2} {opc : BitVec 8}
    (herr : RaisedWith opc err) (hleg : LegFits err leg)
    (hclamp : clamp = true → err = .none ∧ (opc = 1 ∨ opc = 2))
    (hrange : range = true → err = .none ∧ opc = 7) :
    StatusLegal (statusWord err clamp range leg opc) := by
  have raised {err' : ErrKind} (h : err.code = err'.code) : RaisedWith opc err' := code_injective h ▸ herr
  constructor <;>
    simp only [statusReserved_statusWord, statusErr_statusWord, statusClamp_statusWord,
      statusRange_statusWord, statusLeg_statusWord, statusLastOpc_statusWord]
  case err =>
    cases err with
    | unknownEnumValue => exact herr.elim
    | _ => decide
  case clamp => exact fun h => (hclamp h).imp_left (congrArg ErrKind.code)
  case range => exact fun h => (hrange h).imp_left (congrArg ErrKind.code)
  case legSet => exact fun h => hleg.1 (code_injective (a₂ := .clockDisparityTooLarge) h)
  case legClear => exact fun h => hleg.2 fun h' => h (congrArg ErrKind.code h')
  case malformed => exact raised (err' := .malformedPacket)
  case validation =>
    rintro (h | h | h)
    · exact raised (err' := .clockNotSynchronized) h
    · exact raised (err' := .invalidVersion) h
    · exact raised (err' := .unexpectedMode) h
  case offset =>
    rintro (h | h)
    · exact raised (err' := .clockDisparityTooLarge) h
    · exact raised (err' := .invalidTransmitTimestamp) h
  case rangeError => exact raised (err' := .rangeError)
  case completed => exact fun h => .inr (raised (err' := .none) h)

/-- Each command's errors are ones its operation code goes with. -/
theorem endsOf_fit (i : Instr) : ∀ e ∈ endsOf i, RaisedWith i.opc e.1 ∧ LegFits e.1 e.2 := by
  cases i <;> simp [endsOf, RaisedWith, LegFits, Instr.opc]

theorem statusLegal_result (i : Instr) (b : Block) : StatusLegal (Instr.result i b).status := by
  obtain ⟨e, he, hstatus⟩ := status_result i b
  obtain ⟨hraised, hleg⟩ := endsOf_fit i e he
  rw [hstatus]
  refine statusLegal_statusWord hraised hleg (fun h => ?_) (fun h => ?_)
  · obtain ⟨rfl | rfl, -⟩ := (clampFlag_iff i b).1 h
    · exact ⟨congrArg Prod.fst (List.mem_singleton.1 he), .inl rfl⟩
    · exact ⟨congrArg Prod.fst (List.mem_singleton.1 he), .inr rfl⟩
  · obtain ⟨rfl, -⟩ := (rangeFlag_iff i b).1 h
    exact ⟨congrArg Prod.fst (List.mem_singleton.1 he), rfl⟩

theorem statusLegal_illegal (opc : BitVec 8) :
    StatusLegal (statusWord .illegalCommand false false 0 opc) :=
  statusLegal_statusWord trivial ⟨nofun, fun _ => rfl⟩ nofun nofun

theorem statusLegal_zero : StatusLegal 0 := by constructor <;> decide

/-! ### The invariant -/

theorem inv_reset (p : Params) : Block.reset.Inv p where
  inWf := rfl
  inWithin := rfl
  outWf := rfl
  outWithin := rfl
  cfgReserved := by decide
  status := statusLegal_zero

/-- Settles O58: the buffers of the reset state are empty and its registers 0. -/
theorem resetMeetsTheInvariant : Obligations.ResetMeetsTheInvariant := inv_reset Config.params

section
variable {p : Params} {b : Block} (hb : b.Inv p)
include hb

/-- The invariant reads STATUS, so a word written there must be legal. -/
theorem inv_setStatus {v : Word} (hv : StatusLegal v) : (b.setStatus v).Inv p where
  inWf := hb.inWf
  inWithin := hb.inWithin
  outWf := hb.outWf
  outWithin := hb.outWithin
  cfgReserved := hb.cfgReserved
  status := hv

/-- The request's 48 octets leave OUT canonical and inside its capacity. -/
theorem outBuf_result (i : Instr) :
    (Instr.result i b).outBuf.wf = true ∧ (Instr.result i b).outBuf.within 48 = true := by
  by_cases hi : i = .buildreq
  · subst hi
    rw [outBuf_buildreq]
    refine ⟨Memory.wf_writeList hb.outWf, Memory.within_writeList hb.outWithin ?_⟩
    rw [length_requestOctets]
  · rw [(writesOnly_result i b).outBuf hi]
    exact ⟨hb.outWf, hb.outWithin⟩

theorem inv_result (i : Instr) : (Instr.result i b).Inv p where
  inWf := (writesOnly_result i b).inBuf ▸ hb.inWf
  inWithin := (writesOnly_result i b).inBuf ▸ hb.inWithin
  outWf := (outBuf_result hb i).1
  outWithin := (outBuf_result hb i).2
  cfgReserved := (writesOnly_result i b).cfg ▸ hb.cfgReserved
  status := statusLegal_result i b

/-- CFG keeps one bit; the invariant constrains no other register that a host can write. -/
theorem inv_writeReg (v : Word) (r : Reg) : (b.writeReg v r).Inv p := by
  obtain ⟨hinWf, hinWithin, houtWf, houtWithin, hcfg, hstatus⟩ := hb
  cases r with
  | cfg =>
    refine ⟨hinWf, hinWithin, houtWf, houtWithin, ?_, hstatus⟩
    rw [show (b.writeReg v .cfg).cfg = BitVec.ofNat 64 (v.toNat % 2) from
      congrArg Block.cfg (setCfg_eq b v), BitVec.toNat_ofNat]
    omega
  | _ => exact ⟨hinWf, hinWithin, houtWf, houtWithin, hcfg, hstatus⟩

theorem inv_wrote {r : Index} {v : Word} {b' : Block} (h : Wrote r v b b') : b'.Inv p := by
  cases h with
  | stored => exact inv_writeReg hb v _
  | ran => exact inv_result hb _
  | illegal => exact inv_setStatus hb (statusLegal_illegal _)

theorem inv_hostWrIn (i : Index) (v : Byte) : (hostWrIn p b i v).Inv p := by
  unfold hostWrIn
  split
  · next hi =>
    exact ⟨Memory.wf_write hb.inWf _ _, Memory.within_write hi hb.inWithin, hb.outWf, hb.outWithin,
      hb.cfgReserved, hb.status⟩
  · exact hb

end

/-- Each kind of statement keeps the invariant. -/
theorem inv_did {p : Params} {s : State} {stmt : HostStmt} {b : Block} (hs : s.block.Inv p)
    (h : Did p s stmt b) : b.Inv p := by
  cases h with
  | kept => exact hs
  | wrote hw => exact inv_wrote hs hw
  | wroteRead hw => exact inv_wrote hs hw
  | stored => exact inv_hostWrIn hs _ _
  | reset => exact inv_reset p

/-- Settles O59: a step past the program changes nothing, and one statement keeps the invariant by
`inv_did`. -/
theorem everyStepKeepsTheInvariant : Obligations.EveryStepKeepsTheInvariant := by
  intro s t hs hstep
  obtain ⟨-, rfl⟩ | ⟨stmt, -, hdid⟩ := step_cases hstep
  · exact hs
  · exact inv_did hs hdid

end Sys2Proof.Proofs.Invariant

/-! RN of 00_scope.md R17 again: it depends on the rational alone and not on the fraction that names it, its
error is at most half a unit of a binade that holds the rational, and values past a power of two are whole
numbers of units. -/

namespace Sys2Proof.Proofs.RoundingFacts

open Sys2Proof.Machine Sys2Proof.Proofs.Scope Sys2Proof.Proofs.Rounding
  Sys2Proof.Proofs.OffsetCalculator

/-! ### RN depends on the rational alone -/

/-- A rational lies in one binade. -/
theorem le_of_inBinade {x : ℚ} {e e' : ℤ} (h : InBinade x e) (h' : InBinade x e') : e' ≤ e := by
  have hmin := h.min
  obtain heq | hlo := h'.lower
  · omega
  · exact Int.lt_add_one_iff.1 ((zpow_lt_zpow_iff_right₀ one_lt_two).1 (hlo.trans_lt h.upper))

theorem inBinade_unique {x : ℚ} {e e' : ℤ} (h : InBinade x e) (h' : InBinade x e') : e = e' :=
  le_antisymm (le_of_inBinade h' h) (le_of_inBinade h h')

/-- The binade and the nearest integer of units there are the rational's. -/
theorem magnitudePattern_congr {n n' d d' : Nat} (hn : 0 < n) (hn' : 0 < n') (hd : 0 < d) (hd' : 0 < d')
    (h : (n : ℚ) / d = n' / d') : magnitudePattern n d = magnitudePattern n' d' := by
  obtain ⟨e, k, hx, hk, hpat⟩ := magnitudePattern_eq hn hd
  obtain ⟨e', k', hx', hk', hpat'⟩ := magnitudePattern_eq hn' hd'
  rw [h] at hx hk
  obtain rfl := inBinade_unique hx hx'
  obtain rfl := isNearestInt_unique hk hk'
  rw [hpat, hpat']

/-- Equal fractions have the same sign. -/
theorem sign_eq_of_div_eq {a a' : ℤ} {b b' : Nat} (hb : 0 < b) (hb' : 0 < b')
    (h : (a : ℚ) / b = a' / b') : a.sign = a'.sign := by
  have hcross : a * b' = a' * b := by
    rw [div_eq_div_iff (Nat.cast_ne_zero.2 hb.ne') (Nat.cast_ne_zero.2 hb'.ne')] at h
    exact_mod_cast h
  have hsign := congrArg Int.sign hcross
  rwa [Int.sign_mul, Int.sign_mul, Int.sign_eq_one_of_pos (Nat.cast_pos.2 hb),
    Int.sign_eq_one_of_pos (Nat.cast_pos.2 hb'), mul_one, mul_one] at hsign

theorem rn_congr {a a' : ℤ} {b b' : Nat} (hb : 0 < b) (hb' : 0 < b') (h : (a : ℚ) / b = a' / b') :
    rn a b = rn a' b' := by
  have hsign := sign_eq_of_div_eq hb hb' h
  by_cases ha : a = 0
  · obtain rfl : a' = 0 := Int.sign_eq_zero_iff_zero.1 (hsign ▸ ha ▸ Int.sign_zero)
    rw [ha, rn_zero, rn_zero]
  have ha' : a' ≠ 0 := fun h0 => ha (Int.sign_eq_zero_iff_zero.1 (hsign.trans (h0 ▸ Int.sign_zero)))
  have hmag : (a.natAbs : ℚ) / b = a'.natAbs / b' := by
    have habs := congrArg abs h
    rwa [abs_div, abs_div, Nat.abs_cast, Nat.abs_cast, ← Int.cast_abs, ← Int.cast_abs,
      ← Nat.cast_natAbs, ← Nat.cast_natAbs] at habs
  have hneg : a < 0 ↔ a' < 0 := by rw [← Int.sign_neg_iff, hsign, Int.sign_neg_iff]
  rw [rn_eq_signedPattern ha, rn_eq_signedPattern ha', decide_eq_decide.2 hneg,
    magnitudePattern_congr (Int.natAbs_pos.2 ha) (Int.natAbs_pos.2 ha') hb hb' hmag]

/-- An operation that is `rn` of a rational is `rn` of every fraction that names it. -/
theorem eq_rn_of_isRn {r : F64} {x : ℚ} (h : IsRn r x) {a : ℤ} {b : Nat} (hb : 0 < b)
    (hx : x = a / b) : r = rn a b := by
  obtain ⟨a', b', hb', rfl, hx'⟩ := h
  exact rn_congr hb' hb (hx'.symm.trans hx)

/-- Settles O11: `isNearest_rn`, and each operation is `rn` of one fraction and so of every equal one. -/
theorem roundingIsToNearestTiesToEven : Obligations.RoundingIsToNearestTiesToEven :=
  ⟨fun a _ hb hlt => isNearest_rn a hb hlt,
    fun n _ _ hb h => eq_rn_of_isRn (isRn_fcvt n) hb h,
    fun x y _ _ _ _ hb => ⟨eq_rn_of_isRn (isRn_fadd x y) hb, eq_rn_of_isRn (isRn_fmul x y) hb,
      fun hy => eq_rn_of_isRn (isRn_fdiv x y hy) hb⟩⟩

/-! ### The error of RN, and the units of a value -/

theorem exists_isNearestInt (x : ℚ) : ∃ k, IsNearestInt k x :=
  ⟨_, x.num_div_den ▸ integerRoundingIsToNearestEven x.num x.den x.den_pos⟩

theorem representable_two_zpow {c : ℤ} (hmin : -1074 ≤ c) (hmax : c ≤ 971) :
    Representable ((2 : ℚ) ^ c) := by
  have h := representable_mul_two_zpow (n := 1) (by decide) hmin hmax
  rwa [Nat.cast_one, one_mul] at h

section
variable {r : F64} {x : ℚ} (h : IsNearest r x)
include h

/-- A binary64 value rounds to itself. -/
theorem toRat_eq_of_isNearest {f : F64} (hfin : F64.finite f = true) (hf : F64.toRat f = x) :
    F64.toRat r = x := by
  have hle := h.nearest f hfin
  rw [hf, sub_self, abs_zero, abs_nonpos_iff, sub_eq_zero] at hle
  exact hle

theorem toRat_eq_of_representable (hx : Representable x) : F64.toRat r = x := by
  obtain ⟨f, hfin, hf⟩ := hx.exists_finite
  exact toRat_eq_of_isNearest h hfin hf

/-- The whole number of units of the binade of `e` nearest to `x` is a binary64 value, and RN is no
farther from `x`. -/
theorem abs_toRat_sub_le {e : ℤ} (hmin : -1022 ≤ e) (hmax : e ≤ 970) (hlo : 0 ≤ x)
    (hhi : x ≤ 2 ^ (e + 1)) : |F64.toRat r - x| ≤ 2 ^ (e - 52) / 2 := by
  have hu : (0 : ℚ) < 2 ^ (e - 52) := by positivity
  obtain ⟨k, hk⟩ := exists_isNearestInt (x / 2 ^ (e - 52))
  have hk0 : 0 ≤ k := ge_of_isNearestInt hk (by rw [Int.cast_zero]; positivity)
  have hk1 : k ≤ 2 ^ 53 := by
    refine le_of_isNearestInt hk ?_
    rwa [div_le_iff₀ hu, Int.cast_pow, Int.cast_ofNat, two_pow_53_mul_unit]
  have hrep : Representable (k * 2 ^ (e - 52)) := by
    lift k to ℕ using hk0
    obtain hlt | heq : k < 2 ^ 53 ∨ k = 2 ^ 53 := by omega
    · exact representable_mul_two_zpow hlt (by omega) (by omega)
    · have hend := representable_two_zpow (c := e + 1) (by omega) (by omega)
      rw [← two_pow_53_mul_unit] at hend
      rw [heq]
      exact_mod_cast hend
  obtain ⟨f, hfin, hf⟩ := hrep.exists_finite
  calc |F64.toRat r - x| ≤ |F64.toRat f - x| := h.nearest f hfin
    _ = |(k : ℚ) - x / 2 ^ (e - 52)| * 2 ^ (e - 52) := by rw [hf, abs_mul_unit_sub hu]
    _ ≤ 1 / 2 * 2 ^ (e - 52) := mul_le_mul_of_nonneg_right hk.nearest hu.le
    _ = 2 ^ (e - 52) / 2 := by ring

end

/-- A value at or past `2 ^ e` is a whole number of units of the binade of `e`. -/
theorem exists_units_of_le {x : F64} {e : ℤ} (h : (2 : ℚ) ^ e ≤ F64.toRat x) :
    ∃ j : ℤ, F64.toRat x = j * 2 ^ (e - 52) := by
  obtain ⟨s, c, hs, -, hx⟩ := exists_toRat_eq x
  have hs' : (s : ℚ) < 2 ^ 53 := by exact_mod_cast (abs_lt.1 hs).2
  have hpow : (2 : ℚ) ^ e < 2 ^ (c + 53) := by
    calc (2 : ℚ) ^ e ≤ s * 2 ^ c := hx ▸ h
      _ < 2 ^ 53 * 2 ^ c := mul_lt_mul_of_pos_right hs' (by positivity)
      _ = 2 ^ (c + 53) := two_pow_mul_two_zpow 53 c
  have hc : e < c + 53 := (zpow_lt_zpow_iff_right₀ one_lt_two).1 hpow
  obtain ⟨n, hn⟩ := Int.eq_ofNat_of_zero_le (by omega : 0 ≤ c - (e - 52))
  refine ⟨s * 2 ^ n, ?_⟩
  rw [hx, Int.cast_mul, Int.cast_pow, Int.cast_ofNat, mul_assoc, two_pow_mul_two_zpow, ← hn,
    add_sub_cancel]

/-- An integer within less than half is the nearest one. -/
theorem isNearestInt_of_abs_lt {k : ℤ} {x : ℚ} (h : |(k : ℚ) - x| < 1 / 2) : IsNearestInt k x :=
  ⟨h.le, fun heq => absurd heq h.ne⟩

end Sys2Proof.Proofs.RoundingFacts

/-! The timestamp converter again, 40_packet_codec.md section 1: BINARY64's four octets are one fraction
(R155), EXACT is the truncated delta (R154), the clamp past era 0 (R160), the range of DEC (R158) and the
round trips (R159). -/

namespace Sys2Proof.Proofs.RoundTrip

open Sys2Proof.Machine Sys2Proof.Proofs.Scope Sys2Proof.Proofs.Rounding Sys2Proof.Proofs.Timestamp
  Sys2Proof.Proofs.OffsetCalculator Sys2Proof.Proofs.RoundingFacts

/-! ### The four octets are one fraction (R155) -/

/-- A value's fraction in units of 2^−32, truncated. -/
def fraction32 (x : ℚ) : Int := ⌊(x - ⌊x⌋) * 2 ^ 32⌋

theorem fraction32_bounds (x : ℚ) : 0 ≤ fraction32 x ∧ fraction32 x < 2 ^ 32 := by
  have hlo : 0 ≤ x - ⌊x⌋ := sub_nonneg.2 (Int.floor_le x)
  have hhi : x - ⌊x⌋ < 1 := by linarith [Int.lt_floor_add_one x]
  refine ⟨Int.floor_nonneg.2 (by positivity), Int.floor_lt.2 ?_⟩
  push_cast
  exact mul_lt_of_lt_one_left (by positivity) hhi

/-- The seconds and the fraction side by side are the value in units of 2^−32, truncated. -/
theorem floor_mul_add_fraction32 (x : ℚ) : ⌊x⌋ * 2 ^ 32 + fraction32 x = ⌊x * 2 ^ 32⌋ := by
  have hsplit : x * 2 ^ 32 = (x - ⌊x⌋) * 2 ^ 32 + (⌊x⌋ * 2 ^ 32 : ℤ) := by
    push_cast
    ring
  rw [hsplit, Int.floor_add_intCast, fraction32, add_comm]

/-- An octet scaled and truncated by itself is a field of the 32-bit fraction. -/
theorem fractionOctet_eq (x : ℚ) {k j : Nat} (h : 8 * k + j = 32) :
    fractionOctet x k = fraction32 x / 2 ^ j % 256 := by
  have hscale : (x - ⌊x⌋) * 2 ^ (8 * k) = (x - ⌊x⌋) * 2 ^ 32 / (2 ^ j : Nat) := by
    rw [← h, pow_add, ← mul_assoc, Nat.cast_pow, Nat.cast_ofNat, mul_div_cancel_right₀ _ (by positivity)]
  rw [fractionOctet, hscale, Int.floor_div_natCast, fraction32]
  norm_cast

/-- The 32-bit fraction is its four octets. -/
theorem f32_encBodyBinary64 (p : Params) (n : Nat) :
    ((encBodyBinary64 p n).f32 : Int) = fraction32 (F64.toRat (secondsCount p n)) := by
  obtain ⟨-, -, hf32⟩ := encBodyBinary64_spec p n
  have hbounds := fraction32_bounds (F64.toRat (secondsCount p n))
  rw [hf32, fractionOctet_eq _ (j := 24) (by decide), fractionOctet_eq _ (j := 16) (by decide),
    fractionOctet_eq _ (j := 8) (by decide), fractionOctet_eq _ (j := 0) (by decide)]
  omega

/-- Past 2^31 the fraction of a binary64 value is a whole number of units of 2^−21. -/
theorem fraction32_mod {x : F64} (h : 2 ^ 31 ≤ F64.toRat x) : fraction32 (F64.toRat x) % 2 ^ 11 = 0 := by
  obtain ⟨j, hj⟩ := exists_units_of_le (e := 31) (by exact_mod_cast h)
  have hunits : (F64.toRat x - ⌊F64.toRat x⌋) * 2 ^ 32 =
      ((j - ⌊F64.toRat x⌋ * 2 ^ 21) * 2 ^ 11 : ℤ) := by
    generalize ⌊F64.toRat x⌋ = i
    rw [hj]
    push_cast
    norm_num
    ring
  rw [fraction32, hunits, Int.floor_intCast]
  exact Int.mul_emod_left _ _

/-- Settles O15: the octets by `f32_encBodyBinary64`, the coarse fraction by `fraction32_mod`. -/
theorem encBinary64FractionIsOneFraction : Obligations.EncBinary64FractionIsOneFraction := by
  intro p _ n _ d
  refine ⟨f32_encBodyBinary64 p n, fun h => ?_⟩
  have hf32 : ((encBodyBinary64 p n).f32 : Int) % 2 ^ 11 = 0 := f32_encBodyBinary64 p n ▸ fraction32_mod h
  omega

/-! ### ENC under EXACT (R152, R154) -/

/-- The seconds and the fraction of ENC_BODY side by side are the delta in units of 2^−32 s, truncated,
modulo 2^64. -/
theorem packed_encBodyExact {p : Params} (hp : p.legal = true) (n : Nat) :
    (encBodyExact p n).s32 * 2 ^ 32 + (encBodyExact p n).f32 = n * 2 ^ 32 / p.tickHz % 2 ^ 64 := by
  have hfraction := (packsSeconds_exact hp n).fraction
  have hsplit : n * 2 ^ 32 / p.tickHz = n / p.tickHz * 2 ^ 32 + n % p.tickHz * 2 ^ 32 / p.tickHz := by
    have hn : n * 2 ^ 32 = n % p.tickHz * 2 ^ 32 + p.tickHz * (n / p.tickHz * 2 ^ 32) := by
      nth_rw 1 [← Nat.mod_add_div n p.tickHz]
      ring
    rw [hn, Nat.add_mul_div_left _ _ (tickHz_pos hp), Nat.add_comm]
  simp only [encBodyExact] at hfraction ⊢
  rw [hsplit]
  generalize n / p.tickHz = q
  generalize n % p.tickHz * 2 ^ 32 / p.tickHz = f at hfraction
  omega

/-- ENC under EXACT from the epoch on, on natural numbers. -/
theorem enc_exact {p : Params} (hp : p.legal = true) (harith : p.encodeArith = .exact) {t : Word} {n : Nat}
    (ht : t.toInt - ntpEpoch p = n) :
    (enc p t).raw.toNat = n * 2 ^ 32 / p.tickHz % 2 ^ 64 ∧
      ((enc p t).clamp = true ↔ 2 ^ 32 * p.tickHz ≤ n) := by
  have hn : (t.toInt - ntpEpoch p).toNat = n := by omega
  have hbody : encBody p n = encBodyExact p n := by rw [encBody, harith]
  obtain ⟨-, -, -, hraw, hclamp⟩ :=
    enc_of_packsSeconds (p := p) (t := t) (by omega) (by rw [hn, hbody]; exact packsSeconds_exact hp n)
  rw [hn, hbody] at hraw
  refine ⟨hraw.trans (packed_encBodyExact hp n), hclamp.trans ?_⟩
  rw [← Nat.le_div_iff_mul_le (tickHz_pos hp)]
  exact_mod_cast Iff.rfl

/-- Settles O16, by `enc_exact`. -/
theorem encExactIsTheTruncatedDelta : Obligations.EncExactIsTheTruncatedDelta := by
  intro p hp harith t ht
  obtain ⟨n, hn⟩ := Int.eq_ofNat_of_zero_le (sub_nonneg.2 ht)
  obtain ⟨hraw, hclamp⟩ := enc_exact hp harith hn
  rw [hraw, hn, hclamp]
  exact ⟨by push_cast; rfl, by exact_mod_cast Iff.rfl⟩

/-! ### Era 0 (R160) -/

/-- ENC under BINARY64 from the epoch on: the count of seconds in units of 2^−32 s, truncated, modulo 2^64,
and the clamp bit says that the count is 2^32 or more. -/
theorem enc_binary64 {p : Params} (hp : p.legal = true) (harith : p.encodeArith = .binary64) {t : Word}
    {n : Nat} (ht : t.toInt - ntpEpoch p = n) :
    let x := F64.toRat (secondsCount p n)
    ((enc p t).raw.toNat : Int) = ⌊x * 2 ^ 32⌋ % 2 ^ 64 ∧
      ((enc p t).clamp = true ↔ 2 ^ 32 ≤ x) := by
  intro x
  have hn : (t.toInt - ntpEpoch p).toNat = n := by omega
  have hlt : n < 2 ^ 64 := hn ▸ delta_lt hp t
  have hbody : encBody p n = encBodyBinary64 p n := by rw [encBody, harith]
  obtain ⟨-, hs32, -, hraw, hclamp⟩ :=
    enc_of_packsSeconds (p := p) (t := t) (by omega) (by rw [hn, hbody]; exact packsSeconds_binary64 hp hlt)
  have hf32 := f32_encBodyBinary64 p n
  have hbounds := fraction32_bounds x
  rw [hn, hbody] at hraw hs32
  refine ⟨?_, hclamp.trans ?_⟩
  · rw [← floor_mul_add_fraction32, hraw]
    push_cast
    rw [hs32, hf32]
    change ⌊x⌋ % 2 ^ 32 * 2 ^ 32 + fraction32 x = _
    omega
  · rw [Int.le_floor]
    push_cast
    rfl

theorem representable_era {p : Params} (hp : p.legal = true) : Representable ((2 : ℚ) ^ 32 * p.tickHz) := by
  rw [mul_comm]
  exact representable_mul_two_zpow ((tickHz_bounds hp).2.trans_lt (by decide)) (c := 32) (by decide)
    (by decide)

theorem representable_two_pow_32 : Representable ((2 : ℚ) ^ 32) :=
  representable_two_zpow (c := 32) (by decide) (by decide)

/-- Neither rounding of the count passes the end of era 0. -/
theorem secondsCount_ge_era {p : Params} (hp : p.legal = true) {n : Nat} (hn : n < 2 ^ 64)
    (h : 2 ^ 32 * p.tickHz ≤ n) : 2 ^ 32 ≤ F64.toRat (secondsCount p n) := by
  have hhz : (0 : ℚ) < p.tickHz := Nat.cast_pos.2 (tickHz_pos hp)
  have hfn : 2 ^ 32 * (p.tickHz : ℚ) ≤ F64.toRat (fcvt n) :=
    ge_of_isNearest (isNearest_fcvt hn) (representable_era hp) (by exact_mod_cast h)
  refine ge_of_isNearest (secondsCount_spec hp hn).1 representable_two_pow_32 ?_
  rwa [toRat_fcvt_tickHz hp, le_div_iff₀ hhz]

/-- Settles O17: under BINARY64 by `secondsCount_ge_era`, under EXACT by the clamp of `enc_exact`. -/
theorem encAfterEraZeroSetsClamp : Obligations.EncAfterEraZeroSetsClamp := by
  intro p hp t ht
  obtain ⟨n, hn⟩ := Int.eq_ofNat_of_zero_le (by omega : 0 ≤ t.toInt - ntpEpoch p)
  have hlt : n < 2 ^ 64 := by
    have := delta_lt hp t
    omega
  have hera : 2 ^ 32 * p.tickHz ≤ n := by omega
  cases harith : p.encodeArith with
  | binary64 => exact (enc_binary64 hp harith hn).2.2 (secondsCount_ge_era hp hlt hera)
  | exact => exact (enc_exact hp harith hn).2.2 hera

/-! ### The range of DEC (R158) -/

/-- Where the seconds come out a binary64 value whose ticks are one too, BINARY64 rounds nothing more. -/
theorem decBody_of_decodedSeconds {p : Params} (hp : p.legal = true) (harith : p.decodeArith = .binary64)
    {raw : Word} {k : ℤ} (hk : F64.toRat (decodedSeconds raw) * p.tickHz = k)
    (hrep : Representable (k : ℚ)) : decBody p raw = k := by
  obtain ⟨hticks, -⟩ := decodedTicks_spec hp raw
  rw [hk] at hticks
  have hbody := isNearestInt_decBody_binary64 harith raw
  rw [toRat_eq_of_representable hticks hrep] at hbody
  exact isNearestInt_unique hbody (isNearestInt_of_abs_lt (by rw [sub_self]; norm_num))

theorem decBody_zero {p : Params} (hp : p.legal = true) : decBody p 0 = 0 := by
  cases harith : p.decodeArith with
  | binary64 =>
    have hseconds : F64.toRat (decodedSeconds 0) = 0 := by
      refine toRat_eq_of_representable ?_ representable_zero
      simpa using (decodedSeconds_spec 0).1
    refine decBody_of_decodedSeconds hp harith ?_ (by exact_mod_cast representable_zero)
    rw [hseconds, zero_mul, Int.cast_zero]
  | exact =>
    refine isNearestInt_unique (isNearestInt_decBody_exact harith 0) (isNearestInt_of_abs_lt ?_)
    norm_num

/-- The greatest NTP64 value. -/
def lastRaw : Word := BitVec.ofNat 64 (2 ^ 64 - 1)

/-- The last 2^−32 s of era 0 round up to its end: the units there are 2^−21 s. -/
theorem toRat_decodedSeconds_lastRaw : F64.toRat (decodedSeconds lastRaw) = 2 ^ 32 := by
  have heval : decodedSeconds lastRaw = fcvt (2 ^ 32 : Nat) := by decide
  rw [heval]
  exact (isRn_fcvt _).toRat_eq (by exact_mod_cast representable_two_pow_32)

theorem decBody_lastRaw {p : Params} (hp : p.legal = true) : decBody p lastRaw = 2 ^ 32 * p.tickHz := by
  cases harith : p.decodeArith with
  | binary64 =>
    refine decBody_of_decodedSeconds hp harith ?_ (by exact_mod_cast representable_era hp)
    rw [toRat_decodedSeconds_lastRaw]
    push_cast
    rfl
  | exact =>
    have hz := (tickHz_bounds hp).2
    have hraw : lastRaw.toNat = 2 ^ 64 - 1 := by decide
    refine isNearestInt_unique (isNearestInt_decBody_exact harith lastRaw) (isNearestInt_of_abs_lt ?_)
    have herr :
        ((2 ^ 32 * p.tickHz : ℤ) : ℚ) - lastRaw.toNat * p.tickHz / 2 ^ 32 = p.tickHz / 2 ^ 32 := by
      rw [hraw]
      push_cast
      ring
    have hz' : (p.tickHz : ℚ) ≤ 1000000000 := by exact_mod_cast hz
    rw [herr, abs_of_nonneg (by positivity), div_lt_iff₀ (by positivity)]
    linarith

/-- Settles O19: the range by `decBody_bounds`, its ends by `decBody_zero` and `decBody_lastRaw`. -/
theorem decStaysInEraZero : Obligations.DecStaysInEraZero := by
  intro p hp
  refine ⟨fun raw => ?_, ?_, ?_⟩
  · obtain ⟨hlo, hhi⟩ := decBody_bounds hp raw
    rw [dec_toInt hp]
    omega
  · rw [dec_toInt hp, decBody_zero hp, add_zero]
  · exact (dec_toInt hp lastRaw).trans (by rw [decBody_lastRaw hp])

/-! ### The round trips (R159) -/

/-- An Instant that ENC does not clamp is some ticks past the epoch. -/
theorem exists_delta_of_clamp {p : Params} (hp : p.legal = true) {t : Word}
    (h : (enc p t).clamp = false) : ∃ n : Nat, t.toInt - ntpEpoch p = n := by
  refine Int.eq_ofNat_of_zero_le (sub_nonneg.2 (not_lt.1 fun hlt => ?_))
  rw [enc_before_epoch hp hlt] at h
  exact Bool.noConfusion h

/-- Truncating to units of 2^−32 s loses less than half a tick, so RNI finds the delta again. -/
theorem isNearestInt_truncated {hz n raw : Nat} (hhz : 0 < hz) (hz31 : hz < 2 ^ 31)
    (hraw : raw = n * 2 ^ 32 / hz) : IsNearestInt n ((raw : ℚ) * hz / 2 ^ 32) := by
  have hlo : raw * hz ≤ n * 2 ^ 32 := hraw ▸ Nat.div_mul_le_self _ _
  have hhi : n * 2 ^ 32 < raw * hz + hz := by
    rw [hraw]
    exact Nat.lt_div_mul_add hhz
  have hlo' : (raw : ℚ) * hz ≤ n * 2 ^ 32 := by exact_mod_cast hlo
  have hhi' : (n : ℚ) * 2 ^ 32 < raw * hz + 2 ^ 31 := by exact_mod_cast hhi.trans (by omega)
  refine isNearestInt_of_abs_lt ?_
  rw [Int.cast_natCast, sub_div' (by positivity), abs_div, abs_of_nonneg (by linarith),
    abs_of_pos (by positivity), div_lt_iff₀ (by positivity)]
  linarith

/-- Settles O20: the fraction keeps the delta, and the sum is the Instant. -/
theorem exactRoundTripIsTheIdentity : Obligations.ExactRoundTripIsTheIdentity := by
  intro p hp henc hdec t hclamp
  obtain ⟨n, hn⟩ := exists_delta_of_clamp hp hclamp
  obtain ⟨hraw, hera⟩ := enc_exact hp henc hn
  have hlt : n < 2 ^ 32 * p.tickHz := not_le.1 fun h => Bool.false_ne_true (hclamp ▸ hera.2 h)
  rw [Nat.mod_eq_of_lt ((Nat.div_lt_iff_lt_mul (tickHz_pos hp)).2 (by omega))] at hraw
  have hbody : decBody p (enc p t).raw = n :=
    isNearestInt_unique (isNearestInt_decBody_exact hdec _)
      (isNearestInt_truncated (tickHz_pos hp) ((tickHz_bounds hp).2.trans_lt (by decide)) hraw)
  apply BitVec.eq_of_toInt_eq
  rw [dec_toInt hp, hbody, ← hn, add_sub_cancel]

/-- A value truncated to units of 2^−32 s is a binary64 value: below 2^21 it has at most 53 bits of them,
and from 2^21 on the truncation changes nothing. -/
theorem exists_finite_truncated {x : F64} (hfin : F64.finite x = true) {raw : Nat}
    (hraw : (raw : Int) = ⌊F64.toRat x * 2 ^ 32⌋) :
    ∃ f : F64, F64.finite f = true ∧ F64.toRat f = (raw : ℚ) / 2 ^ 32 := by
  by_cases hlt : raw < 2 ^ 53
  · exact (representable_fraction hlt).exists_finite
  refine ⟨x, hfin, ?_⟩
  have hge : (2 : ℚ) ^ (21 : ℤ) ≤ F64.toRat x := by
    have hfloor : ((2 ^ 53 : ℤ) : ℚ) ≤ F64.toRat x * 2 ^ 32 := Int.le_floor.1 (by omega)
    norm_num at hfloor ⊢
    linarith
  obtain ⟨j, hj⟩ := exists_units_of_le hge
  have hunits : F64.toRat x * 2 ^ 32 = (j * 2 : ℤ) := by
    rw [hj]
    push_cast
    norm_num
    ring
  rw [hunits, Int.floor_intCast] at hraw
  rw [eq_div_iff (by positivity), hunits, ← hraw, Int.cast_natCast]

/-- The seconds DEC_BODY forms from an unclamped ENC are those ENC_BODY kept. -/
theorem toRat_decodedSeconds_enc {p : Params} (hp : p.legal = true) {n : Nat} (hn : n < 2 ^ 64) {raw : Word}
    (hraw : (raw.toNat : Int) = ⌊F64.toRat (secondsCount p n) * 2 ^ 32⌋) :
    F64.toRat (decodedSeconds raw) = raw.toNat / 2 ^ 32 := by
  obtain ⟨f, hfin, hf⟩ := exists_finite_truncated (secondsCount_spec hp hn).1.finite hraw
  exact toRat_eq_of_isNearest (decodedSeconds_spec raw).1 hfin hf

/-! At the default `TICK_HZ` each rounding is off by at most half a unit, and the five errors add up to
less than 11 ticks. -/

theorem legal_default : Config.params.legal = true := by decide

theorem tickHz_default : (Config.params.tickHz : ℚ) = 10000000 := by
  change ((10000000 : Nat) : ℚ) = 10000000
  norm_num

/-- The product of DEC_BODY is at most 4 ticks off. -/
theorem abs_decodedTicks_sub_le (raw : Word) :
    |F64.toRat (decodedTicks Config.params raw) - F64.toRat (decodedSeconds raw) * 10000000| ≤ 4 := by
  obtain ⟨-, hlo, hhi⟩ := decodedSeconds_spec raw
  have hnear := (decodedTicks_spec legal_default raw).1
  rw [tickHz_default] at hnear
  have hhi' : F64.toRat (decodedSeconds raw) * 10000000 ≤ 2 ^ 56 := by linarith
  refine (abs_toRat_sub_le hnear (e := 55) (by decide) (by decide) (by positivity) hhi').trans_eq ?_
  norm_num

section
variable {n : Nat} (hn : n < 2 ^ 64)
include hn

theorem isNearest_secondsCount_default :
    IsNearest (secondsCount Config.params n) (F64.toRat (fcvt n) / 10000000) := by
  have h := (secondsCount_spec legal_default hn).1
  rwa [toRat_fcvt_tickHz legal_default, tickHz_default] at h

variable (hera : F64.toRat (secondsCount Config.params n) < 2 ^ 32)
include hera

/-- A count before the end of era 0 comes from fewer than 2^32 exact seconds. -/
theorem fcvt_lt_era : F64.toRat (fcvt n) / 10000000 < 2 ^ 32 :=
  not_le.1 fun h =>
    not_le.2 hera (ge_of_isNearest (isNearest_secondsCount_default hn) representable_two_pow_32 h)

/-- The ticks of era 0 have at most 56 bits, so converting them is at most 4 ticks off. -/
theorem abs_fcvt_sub_le : |F64.toRat (fcvt n) - n| ≤ 4 := by
  have hera' := fcvt_lt_era hn hera
  have hrep : Representable ((2 : ℚ) ^ 56) := representable_two_zpow (c := 56) (by decide) (by decide)
  have hle : (n : ℚ) ≤ 2 ^ 56 := by
    by_contra hgt
    have hge := ge_of_isNearest (isNearest_fcvt hn) hrep (not_le.1 hgt).le
    rw [div_lt_iff₀ (by norm_num)] at hera'
    linarith
  refine (abs_toRat_sub_le (isNearest_fcvt hn) (e := 55) (by decide) (by decide) (Nat.cast_nonneg n)
    hle).trans_eq ?_
  norm_num

/-- The division is at most 2^−22 s off. -/
theorem abs_secondsCount_sub_le :
    |F64.toRat (secondsCount Config.params n) - F64.toRat (fcvt n) / 10000000| ≤ 1 / 2 ^ 22 := by
  have hlo : 0 ≤ F64.toRat (fcvt n) :=
    ge_of_isNearest (isNearest_fcvt hn) representable_zero (Nat.cast_nonneg n)
  refine (abs_toRat_sub_le (isNearest_secondsCount_default hn) (e := 31) (by decide) (by decide)
    (by positivity) (fcvt_lt_era hn hera).le).trans_eq ?_
  norm_num

/-- The five errors add up to less than 11 ticks, and the difference is an integer. -/
theorem abs_decBody_sub_le {raw : Word}
    (hraw : (raw.toNat : Int) = ⌊F64.toRat (secondsCount Config.params n) * 2 ^ 32⌋) :
    |decBody Config.params raw - n| ≤ 10 := by
  have hconvert := abs_le.1 (abs_fcvt_sub_le hn hera)
  have hdivide := abs_le.1 (abs_secondsCount_sub_le hn hera)
  have htruncate : F64.toRat (secondsCount Config.params n) * 2 ^ 32 - 1 < raw.toNat ∧
      (raw.toNat : ℚ) ≤ F64.toRat (secondsCount Config.params n) * 2 ^ 32 := by
    rw [← Int.cast_natCast, hraw]
    exact ⟨Int.sub_one_lt_floor _, Int.floor_le _⟩
  have hmultiply := abs_le.1 (abs_decodedTicks_sub_le raw)
  rw [toRat_decodedSeconds_enc legal_default hn hraw] at hmultiply
  have hround := abs_le.1 (isNearestInt_decBody_binary64 (p := Config.params) rfl raw).nearest
  have hsum : |(decBody Config.params raw : ℚ) - n| < 11 := by
    rw [abs_lt]
    constructor <;> linarith
  have hsum' : |decBody Config.params raw - n| < 11 := by exact_mod_cast hsum
  exact Int.lt_add_one_iff.1 hsum'

end

/-- Settles O21: before the end of era 0 ENC keeps the truncated count of seconds, and DEC_BODY of it is
within 10 ticks of the delta. -/
theorem binary64RoundTripIsWithinAMicrosecond : Obligations.Binary64RoundTripIsWithinAMicrosecond := by
  intro t hclamp
  obtain ⟨n, hn⟩ := exists_delta_of_clamp legal_default hclamp
  have hlt : n < 2 ^ 64 := by
    have := delta_lt legal_default t
    omega
  obtain ⟨hpacked, hera⟩ := enc_binary64 legal_default rfl hn
  have hera' : F64.toRat (secondsCount Config.params n) < 2 ^ 32 :=
    not_le.1 fun h => Bool.false_ne_true (hclamp ▸ hera.2 h)
  have hraw : ((enc Config.params t).raw.toNat : Int) =
      ⌊F64.toRat (secondsCount Config.params n) * 2 ^ 32⌋ := by
    have hlo := (secondsCount_spec legal_default hlt).2
    rw [hpacked, Int.emod_eq_of_lt (Int.floor_nonneg.2 (by positivity)) (Int.floor_lt.2 ?_)]
    push_cast
    linarith
  obtain ⟨hlo, hhi⟩ := abs_le.1 (abs_decBody_sub_le hlt hera' hraw)
  rw [dec_toInt legal_default]
  omega

end Sys2Proof.Proofs.RoundTrip

/-! Further facts of the packet codec and the offset calculator: a request erases the one before (R161), a
second DECHDR changes nothing (R194), CLKOFF's sum fits (R247), the scaled views are exact (R179, R181,
R183), and what the views read after reset (R311). -/

namespace Sys2Proof.Proofs.CommandFacts

open Sys2Proof.Machine Sys2Proof.Proofs.Rounding Sys2Proof.Proofs.Timestamp Sys2Proof.Proofs.PacketCodec
  Sys2Proof.Proofs.Views Sys2Proof.Proofs.OffsetCalculator Sys2Proof.Proofs.Invariant
  Sys2Proof.Proofs.RoundTrip

/-! ### BUILDREQ (R161) -/

/-- OUT after BUILDREQ is the request, and 0 past it. -/
theorem read_outBuf_buildreq {b : Block} (hwf : b.outBuf.wf = true) (hin : b.outBuf.within 48 = true)
    (i : Nat) :
    (Instr.result .buildreq b).outBuf.read i =
      if i < 48 then (requestOctets (enc Config.params b.arg0).raw).getD i 0 else 0 := by
  rw [outBuf_buildreq]
  split
  · next hi => exact read_request hwf _ hi
  · next hi => rw [read_past_request hwf _ (not_lt.1 hi), Memory.read_above (not_lt.1 hi) hin]

/-- Settles O24: both buffers are canonical and read alike. -/
theorem buildreqErasesTheEarlierRequest : Obligations.BuildreqErasesTheEarlierRequest := by
  intro s s' t t' hs hs' harg ht ht'
  rw [exec_next_iff.1 ht, exec_next_iff.1 ht', State.setBlock_block, State.setBlock_block]
  refine Memory.ext (outBuf_result hs _).1 (outBuf_result hs' _).1 fun i => ?_
  rw [read_outBuf_buildreq hs.outWf hs.outWithin, read_outBuf_buildreq hs'.outWf hs'.outWithin, harg]

/-- Octets that are the base-256 digits of a 64-bit number make up its leading octets. -/
theorem beNat_of_octets {m : Memory} {o raw : Nat} (hraw : raw < 2 ^ 64)
    (hoctet : ∀ j ≤ 7, (m.read (o + j)).toNat = raw / 2 ^ (56 - 8 * j) % 256) :
    ∀ n ≤ 8, beNat m o n = raw / 2 ^ (64 - 8 * n) := by
  intro n
  induction n with
  | zero => exact fun _ => (Nat.div_eq_of_lt hraw).symm
  | succ n ih =>
    intro hn
    have hexp : 64 - 8 * n = 56 - 8 * n + 8 := by omega
    have hexp' : 64 - 8 * (n + 1) = 56 - 8 * n := by omega
    rw [beNat, ih (by omega), hoctet n (by omega), hexp, hexp', pow_add, ← Nat.div_div_eq_div_mul]
    exact Nat.div_add_mod' _ 256

/-- Settles O25: the eight octets that `buildreqBuildsTheRequest` gives are the digits of RES0. -/
theorem requestTimestampIsRes0 : Obligations.RequestTimestampIsRes0 := by
  intro s t hwf ht
  obtain ⟨t', ht', -, -, -, hoctet, -, hres, -⟩ := buildreqBuildsTheRequest s hwf
  obtain rfl : t = t' := Host.Outcome.next.inj (ht.symm.trans ht')
  apply BitVec.eq_of_toNat_eq
  rw [be64_toNat_eq_beNat, hres, beNat_of_octets (BitVec.isLt _) hoctet 8 le_rfl]
  exact Nat.div_one _

/-! ### DECHDR (R194) -/

/-- DECHDR writes neither IN nor IN_LEN, the only fields it reads. -/
theorem dechdr_dechdr (p : Params) (b : Block) : dechdr p (dechdr p b) = dechdr p b := by
  obtain ⟨hshort, heq⟩ | ⟨hlong, heq⟩ := dechdr_cases p b
  · obtain ⟨-, heq'⟩ | ⟨hlong, -⟩ := dechdr_cases p (dechdr p b)
    · rw [heq', heq]
    · rw [heq] at hlong
      exact absurd hshort hlong.not_gt
  · obtain ⟨hshort, -⟩ | ⟨-, heq'⟩ := dechdr_cases p (dechdr p b)
    · rw [heq] at hshort
      exact absurd hshort hlong.not_gt
    · rw [heq', heq]

/-- Settles O30, by `dechdr_dechdr`. -/
theorem secondDechdrChangesNothing : Obligations.SecondDechdrChangesNothing := by
  intro s t ht
  obtain rfl := exec_next_iff.1 ht
  exact exec_of_result (dechdr_dechdr Config.params s.block)

/-! ### CLKOFF (R247) -/

/-- The disparity limit is 34 × 365 days. -/
theorem legFails_eq (p : Params) (a b : Word) :
    legFails p a b = decide (1072224000 * (p.tickHz : Int) < |a.toInt - b.toInt|) := by
  rw [legFails, Int.abs_eq_natAbs]
  refine decide_eq_decide.2 (Nat.cast_lt (α := Int).symm.trans ?_)
  rw [disparityLimit, disparityLimitS]
  push_cast
  rfl

theorem transmitZero_eq (p : Params) (t3 : Word) :
    transmitZero p t3 = decide (|t3.toInt - ntpEpoch p| < p.tickHz) := by
  rw [transmitZero, Int.abs_eq_natAbs]
  exact decide_eq_decide.2 Nat.cast_lt.symm

/-- No end of CLKOFF sets RANGE. -/
theorem statusRange_clkoff (p : Params) (b : Block) : statusRange (clkoff p b).status = false := by
  obtain ⟨-, heq⟩ | ⟨-, -, heq⟩ | ⟨-, -, -, heq⟩ | ⟨-, -, -, heq⟩ := clkoff_cases p b
  all_goals rw [heq, statusRange_statusWord]

/-- CLKOFF completes when its three checks pass. -/
theorem res0_clkoff {p : Params} {b : Block} (h1 : legFails p b.arg1 b.arg0 = false)
    (h2 : legFails p b.arg2 b.arg3 = false) (h3 : transmitZero p b.arg2 = false) :
    (clkoff p b).res0 = wrap64 (offsetTicks b) := by
  obtain ⟨h, -⟩ | ⟨-, h, -⟩ | ⟨-, -, h, -⟩ | ⟨-, -, -, heq⟩ := clkoff_cases p b
  · exact absurd (h1.symm.trans h) Bool.false_ne_true
  · exact absurd (h2.symm.trans h) Bool.false_ne_true
  · exact absurd (h3.symm.trans h) Bool.false_ne_true
  · rw [heq]

/-- Settles O35: each leg is at most the limit, and twice the limit is below 2^63. -/
theorem clkoffSumFitsAndRangeIsClear : Obligations.ClkoffSumFitsAndRangeIsClear := by
  intro p hp b limit sum
  refine ⟨statusRange_clkoff p b, fun h1 h2 => ?_⟩
  have hsum : |sum| ≤ 2 * limit := (abs_add_le _ _).trans ((add_le_add h1 h2).trans_eq (two_mul _).symm)
  have hlimit : 2 * limit < 2 ^ 63 := by
    have hz := (tickHz_bounds hp).2
    omega
  refine ⟨hsum, hlimit, fun h3 => ?_⟩
  obtain ⟨hlo, hhi⟩ := abs_le.1 hsum
  rw [res0_clkoff ((legFails_eq ..).trans (decide_eq_false h1.not_gt))
    ((legFails_eq ..).trans (decide_eq_false h2.not_gt))
    ((transmitZero_eq ..).trans (decide_eq_false h3.not_gt))]
  exact wrap64_toInt_of_fits (x := sum) (by omega) (by omega)

/-! ### The scaled views (R179, R181, R183) -/

/-- `rn` of a binary64 value is nearest to it and equal to it. -/
theorem isNearest_and_toRat_eq {r : F64} {x : ℚ} (h : IsRn r x) (hx : Representable x) :
    IsNearest r x ∧ F64.toRat r = x := ⟨h.isNearest hx.abs_lt, h.toRat_eq hx⟩

theorem isRn_precisionNs (e : Int) : IsRn (precisionNs e) (2 ^ e * 1000000000) := by
  refine ⟨_, _, Nat.two_pow_pos _, rfl, ?_⟩
  rw [two_zpow_eq]
  push_cast
  ring

theorem isRn_fixed16Ms (m : Memory) (o : Nat) :
    IsRn (fixed16Ms (be32 m o)) ((beNat m o 4 : ℚ) * 1000 / 65536) := by
  refine ⟨_, _, by decide, rfl, ?_⟩
  rw [be32_toNat_eq_beNat]
  push_cast
  rfl

/-- 10^9 has 30 bits, and the exponent of a precision is an octet's. -/
theorem representable_precision (x : Byte) : Representable ((2 : ℚ) ^ x.toInt * 1000000000) := by
  have hlo := x.le_toInt
  have hhi := x.toInt_lt
  have h := representable_mul_two_zpow (n := 1000000000) (by decide) (c := x.toInt) (by omega) (by omega)
  rwa [Nat.cast_ofNat, mul_comm] at h

/-- A 32-bit field times 1000 has at most 42 bits. -/
theorem representable_fixed16 (m : Memory) (o : Nat) :
    Representable ((beNat m o 4 : ℚ) * 1000 / 65536) := by
  have hfield := be32_toNat_eq_beNat m o ▸ (be32 m o).isLt
  have h := representable_mul_two_zpow (n := beNat m o 4 * 1000) (by omega) (c := -16) (by decide)
    (by decide)
  rw [Nat.cast_mul, Nat.cast_ofNat] at h
  exact h

/-- Settles O39: each view is `rn` of its rational, which is a binary64 value. -/
theorem scaledViewsAreExact : Obligations.ScaledViewsAreExact := fun _ _ =>
  ⟨isNearest_and_toRat_eq (isRn_precisionNs _) (representable_precision _),
    isNearest_and_toRat_eq (isRn_fixed16Ms _ _) (representable_fixed16 _ _),
    isNearest_and_toRat_eq (isRn_fixed16Ms _ _) (representable_fixed16 _ _)⟩

/-! ### After reset (70_reset_and_hazards.md R311) -/

/-- An NTP64 value of 0 is the NTP epoch. -/
theorem dec_zero_default : (dec Config.params 0).toInt = -22089888000000000 := by
  rw [dec_default_toInt, decBody_zero legal_default, add_zero]

/-- The class of stratum 0 renders the four octets verbatim, and all of them are 0. -/
theorem hostRdTxt_reset {j : Nat} (hj : j < 16) : hostRdTxt Block.reset (BitVec.ofNat 32 j) = 0 := by
  have hr : renderRefid Block.reset.inBuf (srcIpv6 Block.reset) = List.replicate 4 0 := rfl
  rw [hostRdTxt_of_render hr (Nat.le_of_lt_succ hj), List.getD_eq_getElem?_getD,
    List.getElem?_getD_replicate_default_eq]

theorem precisionNs_zero : precisionNs 0 = 0x41CDCD6500000000 := by decide

theorem fixed16Ms_zero : fixed16Ms 0 = 0 := by decide

/-- Settles O45: the fields of an empty buffer, and DEC of 0 for the timestamps. -/
theorem viewsAfterReset : Obligations.ViewsAfterReset :=
  ⟨rfl, rfl, rfl, rfl, rfl, rfl, rfl, rfl, rfl, precisionNs_zero, rfl, fixed16Ms_zero, rfl, fixed16Ms_zero,
    rfl, rfl, rfl, rfl, rfl, rfl, rfl, dec_zero_default, dec_zero_default, dec_zero_default,
    dec_zero_default, fun _ => hostRdTxt_reset, rfl, rfl⟩

end Sys2Proof.Proofs.CommandFacts

/-! One step of the host's program (30_encoding.md section 3, 70_reset_and_hazards.md section 3): what a
read keeps, where a branch goes, what MOV copies, and that only a CMD write or a reset changes a result or
OUT. -/

namespace Sys2Proof.Proofs.HostProgram

open Sys2Proof.Machine Sys2Proof.Proofs.HostPort Sys2Proof.Proofs.CommandWord Sys2Proof.Proofs.Invariant

/-! ### Which steps change a result or OUT (10_state.md R33, R37, R38, R42) -/

theorem eq_zero_of_ofIndex {r : Index} (h : Reg.ofIndex r.toNat = .cmd) : r = 0 :=
  BitVec.eq_of_toNat_eq (by_contra fun hr => ofIndex_ne_cmd hr h)

/-- The registers and the buffer that only a command or a reset writes. -/
structure SameResults (b b' : Block) : Prop where
  status : b'.status = b.status
  res0 : b'.res0 = b.res0
  res1 : b'.res1 = b.res1
  res2 : b'.res2 = b.res2
  res3 : b'.res3 = b.res3
  errA : b'.errA = b.errA
  errB : b'.errB = b.errB
  outBuf : b'.outBuf = b.outBuf

theorem SameResults.refl (b : Block) : SameResults b b := ⟨rfl, rfl, rfl, rfl, rfl, rfl, rfl, rfl⟩

/-- A register write stores into CFG, IN_LEN or an argument, or is ignored. -/
theorem sameResults_writeReg (b : Block) (v : Word) (r : Reg) : SameResults b (b.writeReg v r) := by
  cases r <;> exact ⟨rfl, rfl, rfl, rfl, rfl, rfl, rfl, rfl⟩

theorem sameResults_hostWrIn (p : Params) (b : Block) (i : Index) (v : Byte) :
    SameResults b (hostWrIn p b i v) := by
  rw [hostWrIn_frame]
  exact ⟨rfl, rfl, rfl, rfl, rfl, rfl, rfl, rfl⟩

/-- A register write keeps the results, or is a CMD write. -/
theorem sameResults_or_cmd {r : Index} {v : Word} {b b' : Block} (h : Wrote r v b b') :
    SameResults b b' ∨ r = 0 := by
  cases h with
  | stored => exact .inl (sameResults_writeReg b v _)
  | ran hr => exact .inr (eq_zero_of_ofIndex hr)
  | illegal hr => exact .inr (eq_zero_of_ofIndex hr)

/-- A statement keeps the results, or is a reset or a CMD write. -/
theorem did_results {p : Params} {s : State} {stmt : HostStmt} {b : Block} (hs : s.stmt = some stmt)
    (h : Did p s stmt b) :
    SameResults s.block b ∨ s.stmt = some .reset ∨ ∃ w, s.WritesCmd w ∧ Wrote 0 w s.block b := by
  cases h with
  | kept => exact .inl (.refl _)
  | reset => exact .inr (.inl hs)
  | stored => exact .inl (sameResults_hostWrIn ..)
  | wrote hw =>
    obtain hsame | rfl := sameResults_or_cmd hw
    · exact .inl hsame
    · exact .inr (.inr ⟨_, .inl hs, hw⟩)
  | wroteRead hw =>
    obtain hsame | rfl := sameResults_or_cmd hw
    · exact .inl hsame
    · exact .inr (.inr ⟨_, .inr ⟨hs, rfl⟩, hw⟩)

theorem step_results {s t : State} (h : step s = .next t) :
    SameResults s.block t.block ∨ s.stmt = some .reset ∨
      ∃ w, s.WritesCmd w ∧ Wrote 0 w s.block t.block := by
  obtain ⟨-, rfl⟩ | ⟨stmt, hs, hdid⟩ := step_cases h
  · exact .inl (.refl _)
  · exact did_results hs hdid

/-- Settles O52, by `step_results`. -/
theorem onlyCommandsAndResetWriteResults : Obligations.OnlyCommandsAndResetWriteResults := by
  intro s t h hreset hcmd
  obtain hsame | hs | ⟨w, hw, -⟩ := step_results h
  · obtain ⟨hstatus, h0, h1, h2, h3, hA, hB, hout⟩ := hsame
    exact ⟨hstatus, h0, h1, h2, h3, hA, hB, hout⟩
  · exact absurd hs hreset
  · exact absurd hw (hcmd w)

/-- A CMD write of any word but BUILDREQ's leaves OUT. -/
theorem eq_one_of_outBuf_ne {w : Word} {b b' : Block} (h : Wrote 0 w b b') (hne : b'.outBuf ≠ b.outBuf) :
    w = 1 := by
  cases h with
  | stored => exact absurd (sameResults_writeReg b w _).outBuf hne
  | illegal => exact absurd rfl hne
  | @ran _ i hd =>
    by_cases hi : i = .buildreq
    · subst hi
      exact (encodeOfDecodeIsTheWord w _ hd).2.symm
    · exact absurd ((writesOnly_result i b).outBuf hi) hne

/-- Settles O51: a step that changes OUT is a reset or a CMD write, of BUILDREQ's word. -/
theorem outChangesOnlyAtBuildreqOrReset : Obligations.OutChangesOnlyAtBuildreqOrReset := by
  intro s t h hne
  obtain hsame | hs | ⟨w, hw, hwrote⟩ := step_results h
  · exact absurd hsame.outBuf hne
  · exact .inl hs
  · exact .inr (eq_one_of_outBuf_ne hwrote hne ▸ hw)

/-! ### Reads, MOV and branches (30_encoding.md R125 to R127) -/

/-- A host read keeps the value and moves past the statement. -/
theorem step_keeps_read {s : State} {v : Word} {n : Nat} (h : step s = hostRead v s) (hv : v.toNat = n) :
    ∃ t, step s = .next t ∧ t.block = s.block ∧ t.host.readVal.toNat = n ∧
      t.host.pos = s.host.pos + 1 ∧ t.host.program = s.host.program :=
  ⟨_, h, rfl, hv, rfl, rfl⟩

/-- Settles O50: an octet keeps its value when it is zero-extended. -/
theorem hostKeepsTheValueRead : Obligations.HostKeepsTheValueRead := by
  intro s i
  have octet (v : Byte) : (v.zeroExtend 64).toNat = v.toNat := BitVec.toNat_setWidth_of_le (by decide)
  exact ⟨fun hs => step_keeps_read (step_some hs) rfl, fun hs => step_keeps_read (step_some hs) (octet _),
    fun hs => step_keeps_read (step_some hs) (octet _), fun hs => step_keeps_read (step_some hs) (octet _)⟩

/-- The argument registers are 4 to 7 (10_state.md R31). -/
theorem argIndex_toNat (k : Fin 4) : (Script.argIndex k).toNat = 4 + k := by
  revert k
  decide

/-- Settles O55: the read keeps the register's value, and `writeReg_ofIndex` stores it. -/
theorem movCopiesARegisterIntoAnArgument : Obligations.MovCopiesARegisterIntoAnArgument := by
  intro s s' t k reg hrd hwr hs ht v
  have hs' : s' = s.advance.setReadVal v := Host.Outcome.next.inj (hs.symm.trans (step_some hrd))
  have hstmt : s'.stmt = some (.wrRead (Script.argIndex k)) := by rw [hs']; exact hwr
  have hk : (Script.argIndex k).toNat = 4 + k := argIndex_toNat k
  have hstep : step s' = .next (s'.advance.setBlock
      (s'.block.writeReg s'.host.readVal (Reg.ofIndex (Script.argIndex k).toNat))) :=
    (step_some hstmt).trans (hostWrReg_of_ne_zero (by omega) _ _)
  obtain rfl := Host.Outcome.next.inj (ht.symm.trans hstep)
  rw [State.setBlock_block, hk, hs']
  fin_cases k <;> rfl

/-- STATUS.ERR is the low octet of STATUS. -/
theorem statusErr_ne_zero_iff (w : Word) : statusErr w ≠ 0 ↔ w.toNat % 256 ≠ 0 := by
  rw [ne_eq, ← BitVec.toNat_inj, statusErr_toNat]
  rfl

/-- Settles O54, by what each branch statement performs. -/
theorem hostBranchesLeaveTheBlock : Obligations.HostBranchesLeaveTheBlock := by
  intro s target
  refine ⟨fun hs => ?_, step_some, step_some⟩
  by_cases herr : s.block.status.toNat % 256 ≠ 0
  · refine ⟨_, (step_some hs).trans (if_pos ((statusErr_ne_zero_iff _).2 herr)), rfl, rfl, ?_⟩
    rw [if_pos herr]
    rfl
  · refine ⟨_, (step_some hs).trans (if_neg (mt (statusErr_ne_zero_iff _).1 herr)), rfl, rfl, ?_⟩
    rw [if_neg herr]
    rfl

/-! ### The whole machine -/

/-- Settles O56: a statement answers a next state by `perform_next`, and past the program by `step_none`. -/
theorem everyStepHasANextState : Obligations.EveryStepHasANextState := by
  refine ⟨fun s => ?_, fun s => step_none⟩
  cases hs : s.stmt with
  | none => exact ⟨s, step_none hs⟩
  | some stmt =>
    obtain ⟨t, ht, -⟩ := perform_next Config.params stmt s
    exact ⟨t, (step_some hs).trans ht⟩

/-- Settles O57, by evaluating the constants at the defaults. -/
theorem defaultParametersAreLegal : Obligations.DefaultParametersAreLegal := by
  unfold Obligations.DefaultParametersAreLegal
  decide

end Sys2Proof.Proofs.HostProgram
